-- ==== Sys2Proof/Word.lean ====
section
/-! DEFINITION. The two word types of the core: a byte and a 16-bit address (spec 00_scope.md section 6.1). -/

namespace Sys2Proof

/-- An 8-bit value: a register, a memory cell, an instruction byte. -/
abbrev Byte := BitVec 8

/-- A 16-bit address before the bus mask of R40 is applied, or a 16-bit word. -/
abbrev Addr := BitVec 16

end Sys2Proof
end

