-- ==== Sys2Proof/Machine/Bits.lean ====
section
/-! DEFINITION. Bit fields, extensions and byte order: the notation of spec 00_scope.md section 6.1 and R51. -/

namespace Sys2Proof.Machine

/-- `{hi, lo}`: the word of two bytes. -/
def wordOf (hi lo : Byte) : Addr := hi ++ lo

/-- `a[15:8]`. -/
def hiByte (a : Addr) : Byte := a.extractLsb' 8 8

/-- `a[7:0]`. -/
def loByte (a : Addr) : Byte := a.extractLsb' 0 8

/-- `zext_16(b)`. -/
def zext16 (b : Byte) : Addr := b.setWidth 16

/-- `sext_16(b)`. -/
def sext16 (b : Byte) : Addr := b.signExtend 16

/-- `mask_W(a) = a mod 2^W` (R40). -/
def maskTo (w : Nat) (a : Addr) : Addr := BitVec.ofNat 16 (a.toNat % 2 ^ w)

/-- `v[k]`. -/
def bit (v : Byte) (k : Nat) : Bool := v.getLsbD k

end Sys2Proof.Machine
end

