-- ==== Sys2Proof/Config.lean ====
section
/-! DEFINITION. The implementation parameters of R1 and R2, the platform behind the bus as the state `M` of R43, and the free
values: opaque constants that nothing in Lean can evaluate. -/

namespace Sys2Proof

/-- Through which read path the reset vector is read (R1 `RESET_VECTOR_VIEW`, R274). -/
inductive VectorView where
  | direct
  | decrypted
  deriving DecidableEq, Repr

/-- What a supplied table says of one undefined opcode byte (R220). -/
inductive UndefEntry where
  /-- A no-operation of `len` bytes that reports `cycles`. -/
  | nop (len cycles : Nat)
  /-- The crash-equivalent outcome: the core steps back onto the byte. -/
  | jam
  /-- A named operation supplied with the table, outside the spec. -/
  | op (name : String)
  deriving DecidableEq, Repr

/-- What an undefined opcode byte does (R1 `UNDEF_POLICY`, R220, R221). -/
inductive UndefPolicy where
  | refuse
  | table (rows : List (Byte × UndefEntry))
  deriving DecidableEq, Repr

/-- The parameters of R1, with what R2 leaves to the variant.
DESIGN CHOICE (log 1): the state carries them; no step changes them. -/
structure Config where
  /-- `W` (`ADDR_WIDTH`): the number of address bits wired to memory, and the width of `PC`; 1 to 16. -/
  addrWidth : Nat
  /-- `DECIMAL_ENABLED`. -/
  decimalEnabled : Bool
  /-- `UNDEF_POLICY`. -/
  undefPolicy : UndefPolicy
  /-- `HAS_OPCODE_VIEW`. -/
  hasOpcodeView : Bool
  /-- `RESET_VECTOR_VIEW`. -/
  resetVectorView : VectorView
  /-- Whether the debug read path exists (R2: absent under `NoDirectAccess`). -/
  hasDirectRead : Bool
  deriving DecidableEq, Repr

/-- `NarrowBus(w)` of R2 with the defaults of R1. -/
def Config.narrowBus (w : Nat) : Config :=
  { addrWidth := w
    decimalEnabled := true
    undefPolicy := .refuse
    hasOpcodeView := false
    resetVectorView := .direct
    hasDirectRead := true }

/-- `NormalBus` of R2: W = 16. -/
def Config.normalBus : Config := Config.narrowBus 16

/-- `NoDirectAccess` of R2: no opcode view and no debug read path. -/
def Config.noDirectAccess (w : Nat) : Config := { Config.narrowBus w with hasDirectRead := false }

/-! ## The platform -/

/-- What answers at a bus address (R43: "What each address is (RAM, ROM, device, nothing) is the platform's choice").
DESIGN CHOICE (log 5): three classes, the third of them unrestricted. -/
inductive CellKind where
  /-- Plain memory. -/
  | ram
  /-- Plain memory that a store does not change. -/
  | rom
  /-- Anything else: what a read returns and what an access does to the platform are open. -/
  | device
  deriving DecidableEq, Repr

/-- A range of bus addresses of one kind. -/
structure Region where
  base : Nat
  size : Nat
  kind : CellKind
  deriving DecidableEq, Repr

/-- The kinds of read of the bus contract (R43). -/
inductive Machine.ReadKind where
  | data
  | operand
  | opcode
  | vector
  | direct
  deriving DecidableEq, Repr

/-- A byte array by bus address: addresses strictly rising, no entry equal to what an unlisted address reads as. -/
abbrev Machine.Memory := List Host.Cell

/-- The platform state `M` of R43. -/
structure Machine.Platform where
  /-- The program space (R41): what RAM and ROM cells hold. -/
  mem : Machine.Memory
  /-- The opcode view (R41), read only when `HAS_OPCODE_VIEW`. -/
  opcodeView : Machine.Memory
  /-- What the bus addresses are; the first region that holds an address decides, and an address in no region is RAM. -/
  regions : List Region
  /-- The rest of the platform: the state of its devices, as a number (log 5). -/
  devices : Nat
  deriving DecidableEq, Repr

/-- A change that an access to a device makes behind the bus. -/
inductive Machine.PlatformChange where
  /-- A cell of the program space. -/
  | cell (addr : Addr) (v : Byte)
  /-- A cell of the opcode view. -/
  | view (addr : Addr) (v : Byte)
  /-- What the addresses are (a bank switched in or out). -/
  | regions (rs : List Region)
  deriving DecidableEq, Repr

/-- What an access to a device does to the platform: the new state of the devices, and the changes, oldest first. -/
structure Machine.DeviceEffect where
  devices : Nat
  changes : List Machine.PlatformChange
  deriving DecidableEq, Repr, Inhabited

/-! ## What is open -/

/-- `bus_read(M, a, kind)` at a device cell (R43): any byte and any effect. Nothing constrains it (log 5). -/
opaque Config.deviceRead : Machine.Platform → Machine.ReadKind → Addr → Byte × Machine.DeviceEffect

/-- `bus_write(M, a, v)` at a device cell (R43): any effect. Nothing constrains it (log 5). -/
opaque Config.deviceWrite : Machine.Platform → Addr → Byte → Machine.DeviceEffect

/-- `bus_read(M, a, direct)` at a device cell, which leaves `M` unchanged (R50): any byte (log 11). -/
opaque Config.deviceDirect : Machine.Platform → Addr → Byte

/-- What a store to a plain cell changes in the opcode view, "the platform's business" (R59): any cells (log 7). -/
opaque Config.viewAfterStore : Machine.Platform → Addr → Byte → List (Addr × Byte)

/-- The free value number `n`: what a register holds after a reset service. Nothing constrains it (log 4). -/
opaque Config.freeByte : Nat → Byte

end Sys2Proof
end

