-- ==== Sys2Proof/Machine/State.lean ====
section
/-! DEFINITION. The state as plain data: every piece of state of R10, the platform behind the bus (R41, R43), the
parameters (R1), and three fields of the model's own (`reported`, `bus`, `draws`); the reasons a step can stop; the state
after reset (R27). -/

namespace Sys2Proof.Machine

/-- The six stored flags of the status byte `P` (R17); bits 5 and 4 of `P` are not stored. -/
structure Flags where
  n : Bool
  v : Bool
  d : Bool
  i : Bool
  z : Bool
  c : Bool
  deriving DecidableEq, Repr

/-- The sequencer position (R23). -/
inductive Phase where
  | atFetch
  | atCheck
  deriving DecidableEq, Repr

/-- One bus access of the core: a read of a kind that returned `value`, or a write of `value`, at a masked address. -/
inductive BusAccess where
  | read (kind : ReadKind) (addr : Addr) (value : Byte)
  | write (addr : Addr) (value : Byte)
  deriving DecidableEq, Repr

/-- The three kinds of interrupt entry (R236). -/
inductive InterruptKind where
  | nmi
  | irq
  | brk
  deriving DecidableEq, Repr

structure State where
  /-- Accumulator `A` (R11). -/
  a : Byte
  /-- Index register `X` (R11). -/
  x : Byte
  /-- Index register `Y` (R11). -/
  y : Byte
  /-- Stack pointer `SP` (R13). -/
  sp : Byte
  /-- Status flags (R17). -/
  p : Flags
  /-- Program counter `PC`, W bits; the bits above W are zero (R16). -/
  pc : Addr
  /-- Level of the IRQ line (R21). -/
  irqLine : Bool
  /-- Level of the NMI line (R21). -/
  nmiLine : Bool
  /-- Level of the RESET line (R21). -/
  resetLine : Bool
  /-- The NMI edge latch (R22). -/
  nmiPending : Bool
  /-- Sequencer position (R23). -/
  phase : Phase
  /-- Pending-cycle counter; 0 between steps (R24). -/
  cyc : Nat
  /-- The platform behind the bus: the state `M` of R43. -/
  plat : Platform
  /-- The parameters (R1). -/
  cfg : Config
  /-- MODEL'S OWN: the cycle count the last step reported (R3, R285; log 12). -/
  reported : Nat
  /-- MODEL'S OWN: the bus accesses of the last core step, oldest first (R53, R56; log 12). -/
  bus : List BusAccess
  /-- MODEL'S OWN: how many free values have been drawn (log 12). -/
  draws : Nat
  deriving DecidableEq, Repr

/-- The program space (R41). -/
abbrev State.mem (s : State) : Memory := s.plat.mem

/-- The opcode view (R41). -/
abbrev State.opcodeView (s : State) : Memory := s.plat.opcodeView

/-- Why a step stops with a fault. -/
inductive Fault where
  /-- Raised by `step` while `reset_line` is asserted: the spec says no core step is enabled then (R270, R276), so there is
  no next state until the platform clears the line. SAFE: the model has no step where the hardware has none. -/
  | heldInReset
  deriving DecidableEq, Repr

/-- Why an instruction is given no meaning. -/
inductive Refusal where
  /-- Raised by `exec` for an instruction that has no meaning in the model yet. SAFE: nothing can be proved of it. -/
  | notModelled (mnemonic : String)
  /-- Raised by `execUndefined` for an undefined opcode byte under the policy `refuse`, or under a table that has no row
  for the byte: "the model gives the step no meaning" (R220). SAFE: no claim holds of a run that reaches it. -/
  | undefinedOpcode (op : Byte)
  /-- Raised by `execUndefined` where the supplied table names an operation "outside this spec" (R220). SAFE. -/
  | undefinedOperation (op : Byte) (name : String)
  deriving DecidableEq, Repr

/-- What a step or an instruction answers. -/
abbrev Result := Host.Outcome State Fault Refusal

/-- The machine right after reset (R27, R271): `I` set, `PC` the word at the reset vector (0x0000 in a memory with nothing
listed), phase `AtFetch`, `nmi_pending` and `cyc` 0. DESIGN CHOICE: the values the spec leaves open (log 1, 2, 3, 5, 12, 13). -/
def State.reset : State :=
  { a := 0, x := 0, y := 0, sp := 0
    p := { n := false, v := false, d := false, i := true, z := false, c := false }
    pc := 0
    irqLine := false, nmiLine := false, resetLine := false, nmiPending := false
    phase := .atFetch, cyc := 0
    plat := { mem := [], opcodeView := [], regions := [], devices := 0 }
    cfg := Config.normalBus
    reported := 0, bus := [], draws := 0 }

end Sys2Proof.Machine
end

