-- ==== Sys2Proof/Machine/Flags.lean ====
section
/-! DEFINITION. Every flag computation of the spec: packing of `P` (R18), N and Z (R19), binary and decimal add and subtract
(R142 to R145), compare (R132), bit test (R153), shifts and rotates (R154 to R157). An operation that writes a result and
flags answers the pair of the two. -/

namespace Sys2Proof.Machine

/-- `PackP(b)`: the status byte with bit 5 set and bit 4 equal to `b` (R18). -/
def packP (b : Bool) (p : Flags) : Byte :=
  BitVec.ofBoolListBE [p.n, p.v, true, b, p.d, p.i, p.z, p.c]

/-- `UnpackP(v)`: the six flags of a status byte; bits 5 and 4 are ignored (R18). -/
def unpackP (v : Byte) : Flags :=
  { n := bit v 7, v := bit v 6, d := bit v 3, i := bit v 2, z := bit v 1, c := bit v 0 }

/-- `SetNZ(v)` (R19). -/
def setNZ (v : Byte) (p : Flags) : Flags := { p with z := decide (v = 0#8), n := bit v 7 }

/-- `AddBinary(M)` (R142): the new `A` and the new flags. -/
def addBinary (a m : Byte) (p : Flags) : Byte × Flags :=
  let t := a.toNat + m.toNat + p.c.toNat
  let r := BitVec.ofNat 8 t
  (r, setNZ r { p with v := bit ((a ^^^ r) &&& (m ^^^ r)) 7, c := decide (t > 255) })

/-- `SubBinary(M)` (R143): `AddBinary` of the one's complement of M. -/
def subBinary (a m : Byte) (p : Flags) : Byte × Flags := addBinary a (m ^^^ 0xFF#8) p

/-- `AddDecimal(M)` (R144). `al` is the corrected low digit with its carry, `t` the sum before the high correction. -/
def addDecimal (a m : Byte) (p : Flags) : Byte × Flags :=
  let bin := BitVec.ofNat 8 (a.toNat + m.toNat + p.c.toNat)
  let al0 := a.toNat % 16 + m.toNat % 16 + p.c.toNat
  let al := if al0 ≥ 10 then (al0 + 6) % 16 + 16 else al0
  let t := (a &&& 0xF0#8).toNat + (m &&& 0xF0#8).toNat + al
  let t8 := BitVec.ofNat 8 t
  let u := if t ≥ 0xA0 then t + 0x60 else t
  (BitVec.ofNat 8 u,
    { p with
      z := decide (bin = 0#8)
      n := bit t8 7
      v := bit ((a ^^^ t8) &&& (m ^^^ t8)) 7
      c := decide (u ≥ 0x100) })

/-- `SubDecimal(M)` (R145): the flags of `SubBinary`; only `A` is corrected. -/
def subDecimal (a m : Byte) (p : Flags) : Byte × Flags :=
  let al0 : Int := (a.toNat % 16 : Nat) - (m.toNat % 16 : Nat) + p.c.toNat - 1
  let al := if al0 < 0 then (al0 - 6) % 16 - 16 else al0
  let d0 : Int := (a &&& 0xF0#8).toNat - (m &&& 0xF0#8).toNat + al
  let d := if d0 < 0 then d0 - 0x60 else d0
  (BitVec.ofInt 8 d, (subBinary a m p).2)

/-- The flags of a compare of register value `r` with `m` (R132, R133, R134). -/
def compareFlags (r m : Byte) (p : Flags) : Flags :=
  setNZ (r - m) { p with c := decide (m.toNat ≤ r.toNat) }

/-- The flags of BIT (R153). -/
def bitFlags (a m : Byte) (p : Flags) : Flags :=
  { p with z := decide (a &&& m = 0#8), n := bit m 7, v := bit m 6 }

/-- ASL (R154). -/
def shiftLeft (m : Byte) (p : Flags) : Byte × Flags :=
  let r := m <<< 1
  (r, setNZ r { p with c := bit m 7 })

/-- LSR (R155). -/
def shiftRight (m : Byte) (p : Flags) : Byte × Flags :=
  let r := m >>> 1
  (r, setNZ r { p with c := bit m 0 })

/-- ROL (R156): the old C enters bit 0, the old bit 7 leaves into C. -/
def rotateLeft (m : Byte) (p : Flags) : Byte × Flags :=
  let r := (m <<< 1) ||| BitVec.ofNat 8 p.c.toNat
  (r, setNZ r { p with c := bit m 7 })

/-- ROR (R157): the old C enters bit 7, the old bit 0 leaves into C. -/
def rotateRight (m : Byte) (p : Flags) : Byte × Flags :=
  let r := (m >>> 1) ||| (BitVec.ofNat 8 p.c.toNat <<< 7)
  (r, setNZ r { p with c := bit m 0 })

/-- INC on a byte (R135). -/
def increment (m : Byte) (p : Flags) : Byte × Flags := (m + 1#8, setNZ (m + 1#8) p)

/-- DEC on a byte (R136). -/
def decrement (m : Byte) (p : Flags) : Byte × Flags := (m - 1#8, setNZ (m - 1#8) p)

end Sys2Proof.Machine
end

