-- ==== Sys2Proof/Machine/Ops.lean ====
section
/-! DEFINITION. The named operations over memory and registers: the canonical memory list, the bus contract with its mask,
kinds and side effects (R40 to R50), register updates, the stack (R14, R15), taking an exception (R236) and returning from
one (R239). -/

namespace Sys2Proof.Machine

/-! ## Memory as a canonical list -/

/-- What an unlisted address reads as. DESIGN CHOICE (log 2): the spec gives memory no reset contents. -/
def Memory.fill : Byte := 0#8

/-- The byte at an address. -/
def Memory.read : Memory → Nat → Byte
  | [], _ => Memory.fill
  | (k, v) :: m, a => if k = a then v else Memory.read m a

/-- Store a byte at an address, keeping the canonical form: writing what an unlisted address reads as removes the entry. -/
def Memory.write : Memory → Nat → Byte → Memory
  | [], a, v => if v = Memory.fill then [] else [(a, v)]
  | (k, w) :: m, a, v =>
    if a < k then
      if v = Memory.fill then (k, w) :: m else (a, v) :: (k, w) :: m
    else if a = k then
      if v = Memory.fill then m else (a, v) :: m
    else (k, w) :: Memory.write m a v

/-- The canonical form: addresses strictly rising, no entry equal to what an unlisted address reads as. -/
def Memory.wf : Memory → Bool
  | [] => true
  | (k, v) :: m => decide (v ≠ Memory.fill) && m.all (fun c => decide (k < c.1)) && Memory.wf m

/-- Every listed address is below `bound`. -/
def Memory.below (bound : Nat) (m : Memory) : Bool := m.all (fun c => decide (c.1 < bound))

/-! ## Addresses and the program counter -/

/-- The mask of R40: every access presents the low W bits of its address to the bus. -/
def State.mask (s : State) (a : Addr) : Addr := maskTo s.cfg.addrWidth a

/-- `NextPC(n)`: `(PC + n) mod 2^W` (R12). -/
def State.nextPc (s : State) (n : Nat) : Addr := s.mask (s.pc + BitVec.ofNat 16 n)

/-- `PC <- NextPC(1)`. -/
def State.advance (s : State) : State := { s with pc := s.nextPc 1 }

/-- `PC <- target mod 2^W` (R16, R183). -/
def State.jump (s : State) (target : Addr) : State := { s with pc := s.mask target }

/-! ## The platform -/

/-- What answers at a bus address (R43): the first region that holds the address, else RAM. -/
def Platform.kindAt (M : Platform) (a : Addr) : CellKind :=
  match M.regions.find? (fun r => decide (r.base ≤ a.toNat ∧ a.toNat < r.base + r.size)) with
  | some r => r.kind
  | none => .ram

/-- Make one change behind the bus of a core with `w` address bits. -/
def Platform.change (w : Nat) (M : Platform) : PlatformChange → Platform
  | .cell a v => { M with mem := M.mem.write (maskTo w a).toNat v }
  | .view a v => { M with opcodeView := M.opcodeView.write (maskTo w a).toNat v }
  | .regions rs => { M with regions := rs }

/-- Make changes in order. -/
def Platform.changes (w : Nat) (M : Platform) : List PlatformChange → Platform
  | [] => M
  | c :: cs => (M.change w c).changes w cs

/-- The platform after an access to a device. -/
def Platform.after (w : Nat) (M : Platform) (e : DeviceEffect) : Platform :=
  { M.changes w e.changes with devices := e.devices }

/-- The byte of `bus_read(M, a, kind)` (R43, R44): what a plain cell holds in the view that the kind sees, or what the device
answers. -/
def Platform.value (c : Config) (M : Platform) (k : ReadKind) (a : Addr) : Byte :=
  match M.kindAt a with
  | .device =>
    match k with
    | .direct => Config.deviceDirect M a
    | k => (Config.deviceRead M k a).1
  | _ =>
    match k with
    | .opcode => if c.hasOpcodeView then M.opcodeView.read a.toNat else M.mem.read a.toNat
    | _ => M.mem.read a.toNat

/-- The platform after `bus_read(M, a, kind)` (R43): unchanged for a plain cell, and for the kind `direct` (R50). -/
def Platform.afterRead (c : Config) (M : Platform) (k : ReadKind) (a : Addr) : Platform :=
  match M.kindAt a with
  | .device =>
    match k with
    | .direct => M
    | k => M.after c.addrWidth (Config.deviceRead M k a).2
  | _ => M

/-- The opcode view after a store to a plain cell: where there is a view, what it changes is open (R59; log 7). -/
def Platform.viewStore (c : Config) (M : Platform) (a : Addr) (v : Byte) : Platform :=
  if c.hasOpcodeView then M.changes c.addrWidth ((Config.viewAfterStore M a v).map fun p => .view p.1 p.2) else M

/-- The platform after `bus_write(M, a, v)` (R43): a RAM cell holds `v`, a ROM cell keeps its byte. -/
def Platform.afterWrite (c : Config) (M : Platform) (a : Addr) (v : Byte) : Platform :=
  match M.kindAt a with
  | .ram => { M.viewStore c a v with mem := M.mem.write a.toNat v }
  | .rom => M.viewStore c a v
  | .device => M.after c.addrWidth (Config.deviceWrite M a v)

/-- What answers at a bus address. -/
def State.kindAt (s : State) (a : Addr) : CellKind := s.plat.kindAt a

/-! ## The bus contract -/

/-- `bus_read(M, mask_W(addr), k)` (R40, R43): the byte, and the state with the platform as the read leaves it and the access
recorded. -/
def busRead (k : ReadKind) (addr : Addr) (s : State) : Byte × State :=
  let b := s.mask addr
  let v := s.plat.value s.cfg k b
  (v, { s with plat := s.plat.afterRead s.cfg k b, bus := s.bus ++ [.read k b v] })

/-- A read that leaves the platform unchanged, as R49 and R50 require of the reset vector and of debug reads. -/
def busObserve (k : ReadKind) (addr : Addr) (s : State) : Byte × State :=
  let b := s.mask addr
  let v := s.plat.value s.cfg k b
  (v, { s with bus := s.bus ++ [.read k b v] })

/-- `bus_write(M, mask_W(addr), v)` (R40, R43). -/
def busWrite (addr : Addr) (v : Byte) (s : State) : State :=
  let b := s.mask addr
  { s with plat := s.plat.afterWrite s.cfg b v, bus := s.bus ++ [.write b v] }

/-- `MemRead(addr, 1)` (R45). -/
def memRead (addr : Addr) (s : State) : Byte × State := busRead .data addr s

/-- `MemWrite(addr, 1, v)` (R46). -/
def memWrite (addr : Addr) (v : Byte) (s : State) : State := busWrite addr v s

/-- `FetchOpcode(PC); PC <- NextPC(1)` (R47, R105). -/
def fetchOpcode (s : State) : Byte × State :=
  let r := busRead .opcode s.pc s
  (r.1, r.2.advance)

/-- `FetchOperand(PC); PC <- NextPC(1)` (R48). -/
def fetchOperand (s : State) : Byte × State :=
  let r := busRead .operand s.pc s
  (r.1, r.2.advance)

/-- `ReadVector(addr, data)` (R49). -/
def readVector (addr : Addr) (s : State) : Byte × State := busRead .vector addr s

/-- `ReadVector(addr, reset)` (R49, R274): kind `direct` or `opcode` as `RESET_VECTOR_VIEW` says, the platform unchanged.
DESIGN CHOICE (log 11): so also under `NoDirectAccess`, where R2 sends every read through the ordinary read path and R49
still has a side-effect-free read of kind `direct`. -/
def readResetVector (addr : Addr) (s : State) : Byte × State :=
  match s.cfg.resetVectorView with
  | .direct => busObserve .direct addr s
  | .decrypted => busObserve .opcode addr s

/-! ## Register updates -/

/-- `A <- v; SetNZ(A)`. -/
def State.loadA (s : State) (v : Byte) : State := { s with a := v, p := setNZ v s.p }

/-- `X <- v; SetNZ(X)`. -/
def State.loadX (s : State) (v : Byte) : State := { s with x := v, p := setNZ v s.p }

/-- `Y <- v; SetNZ(Y)`. -/
def State.loadY (s : State) (v : Byte) : State := { s with y := v, p := setNZ v s.p }

/-- Store the result and the flags of an operation on `A`. -/
def State.putA (s : State) (r : Byte × Flags) : State := { s with a := r.1, p := r.2 }

/-- Replace the flags. -/
def State.withP (s : State) (p : Flags) : State := { s with p := p }

/-- Replace the stack pointer. -/
def State.withSp (s : State) (v : Byte) : State := { s with sp := v }

/-- Retire: the instruction is complete, its cycle count is reported, the interrupt check is next (R23, R24, R105). -/
def State.retire (s : State) (cycles : Nat) : State :=
  { s with phase := .atCheck, cyc := 0, reported := cycles }

/-! ## The stack -/

/-- `STACK_BASE` (R1, D30). -/
def stackBase : Addr := 0x0100#16

/-- The address of the stack byte `sp` points at: `STACK_BASE | SP` (R13). -/
def stackAddr (sp : Byte) : Addr := stackBase ||| zext16 sp

/-- `Push(v)` (R14). -/
def push (v : Byte) (s : State) : State := (memWrite (stackAddr s.sp) v s).withSp (s.sp - 1#8)

/-- `Pull()` (R15). -/
def pull (s : State) : Byte × State := memRead (stackAddr (s.sp + 1#8)) (s.withSp (s.sp + 1#8))

/-- Push a 16-bit word, high byte first, so that its low byte lies at the lower address (R51). -/
def pushWord (w : Addr) (s : State) : State := push (loByte w) (push (hiByte w) s)

/-- Pull a 16-bit word, low byte first. -/
def pullWord (s : State) : Addr × State :=
  let lo := pull s
  let hi := pull lo.2
  (wordOf hi.1 lo.1, hi.2)

/-! ## Taking an exception and returning from one -/

/-- Address of the low byte of an entry's vector (R235, R236); the high byte is at the next address. -/
def vectorAddr : InterruptKind → Addr
  | .nmi => 0xFFFA#16
  | .irq => 0xFFFE#16
  | .brk => 0xFFFE#16

/-- Bit 4 of the status byte an entry pushes (R18, R231). -/
def breakBit : InterruptKind → Bool
  | .nmi => false
  | .irq => false
  | .brk => true

/-- Read a vector of the ordinary path, low byte first. -/
def readVectorWord (addr : Addr) (s : State) : Addr × State :=
  let lo := readVector addr s
  let hi := readVector (addr + 1#16) lo.2
  (wordOf hi.1 lo.1, hi.2)

/-- `raise Interrupt(kind)` (R236): push PC high, PC low and the status, set I, then load PC from the vector. -/
def raiseInterrupt (k : InterruptKind) (s : State) : State :=
  let s1 := push (packP (breakBit k) s.p) (pushWord s.pc s)
  let s2 := s1.withP { s1.p with i := true }
  let t := readVectorWord (vectorAddr k) s2
  t.2.jump t.1

/-- The return from an interrupt (R209, R239): pull the status, then PC low and high; no adjustment of PC. -/
def returnFromInterrupt (s : State) : State :=
  let v := pull s
  let t := pullWord (v.2.withP (unpackP v.1))
  t.2.jump t.1

end Sys2Proof.Machine
end

