-- ==== Sys2Proof/Machine/Operands.lean ====
section
/-! DEFINITION. The addressing modes (R91 to R102) and the ways an instruction uses what a mode yields (R90). The operand
bytes themselves have been fetched when a mode is resolved; the pointer reads of the indirect modes are made here. -/

namespace Sys2Proof.Machine

/-- What a memory mode yields (R90): the effective address, whether a page was crossed, and the state after the reads of
the mode. -/
structure Resolved where
  ea : Addr
  crossed : Bool
  st : State

/-! ## The memory modes -/

/-- Zero-page (R94). -/
def modeZp (b2 : Byte) (s : State) : Resolved := ⟨zext16 b2, false, s⟩

/-- Zero-page,X (R95): wraps inside page zero. -/
def modeZpx (b2 : Byte) (s : State) : Resolved := ⟨zext16 (b2 + s.x), false, s⟩

/-- Zero-page,Y (R96): wraps inside page zero. -/
def modeZpy (b2 : Byte) (s : State) : Resolved := ⟨zext16 (b2 + s.y), false, s⟩

/-- Absolute (R97). -/
def modeAbs (addr : Addr) (s : State) : Resolved := ⟨addr, false, s⟩

/-- The indexed sum of R98 and R100: the index is unsigned, the sum wraps at 16 bits, and the page is crossed when the high
bytes of the sum and of the base differ. -/
def indexed (base : Addr) (idx : Byte) (s : State) : Resolved :=
  let ea := base + zext16 idx
  ⟨ea, decide (hiByte ea ≠ hiByte base), s⟩

/-- Absolute,X (R98). -/
def modeAbsx (addr : Addr) (s : State) : Resolved := indexed addr s.x s

/-- Absolute,Y (R98). -/
def modeAbsy (addr : Addr) (s : State) : Resolved := indexed addr s.y s

/-- The 16-bit pointer at `p` and `p + 1` of page zero, wrapping inside it, low byte first (R99, R100). -/
def zeroPagePointer (p : Byte) (s : State) : Addr × State :=
  let lo := memRead (zext16 p) s
  let hi := memRead (zext16 (p + 1#8)) lo.2
  (wordOf hi.1 lo.1, hi.2)

/-- Indexed-indirect (zp,X) (R99). -/
def modeIndx (b2 : Byte) (s : State) : Resolved :=
  let ptr := zeroPagePointer (b2 + s.x) s
  ⟨ptr.1, false, ptr.2⟩

/-- Indirect-indexed (zp),Y (R100). -/
def modeIndy (b2 : Byte) (s : State) : Resolved :=
  let ptr := zeroPagePointer b2 s
  indexed ptr.1 s.y ptr.2

/-- Indirect (R101), JMP's alone: the target, its high byte read without a carry into the pointer's high byte. -/
def modeInd (ptr : Addr) (s : State) : Addr × State :=
  let lo := memRead ptr s
  let hi := memRead (wordOf (hiByte ptr) (loByte ptr + 1#8)) lo.2
  (wordOf hi.1 lo.1, hi.2)

/-! ## Relative -/

/-- `target16` of R102: the address of the next instruction plus the sign-extended displacement, mod 65536. -/
def relTarget (b2 : Byte) (s : State) : Addr := s.pc + sext16 b2

/-- `crossed` of R102: the page of the target against the page of the next instruction. -/
def relCrossed (b2 : Byte) (s : State) : Bool := decide (hiByte (relTarget b2 s) ≠ hiByte s.pc)

/-! ## The three uses of an effective address (R90), and the modes without one -/

/-- The page-crossing penalty of R103. -/
def Resolved.penalty (r : Resolved) : Nat := if r.crossed then 1 else 0

/-- Read class: one read of the effective address, then the operation on the byte read. The modes that never cross a page
have no penalty (R103). -/
def readInstr (r : Resolved) (base : Nat) (f : Byte → State → State) : Result :=
  let m := memRead r.ea r.st
  .next ((f m.1 m.2).retire (base + r.penalty))

/-- Write class: one write, no read; the count is fixed (R103). -/
def writeInstr (r : Resolved) (base : Nat) (v : Byte) : Result :=
  .next ((memWrite r.ea v r.st).retire base)

/-- Read-modify-write class: one read, then one write of the same address; the count is fixed (R103). -/
def rmwInstr (r : Resolved) (base : Nat) (f : Byte → Flags → Byte × Flags) : Result :=
  let m := memRead r.ea r.st
  let q := f m.1 m.2.p
  .next (((memWrite r.ea q.1 m.2).withP q.2).retire base)

/-- Accumulator mode (R92): operand and destination are `A`. -/
def accInstr (s : State) (f : Byte → Flags → Byte × Flags) : Result :=
  .next ((s.putA (f s.a s.p)).retire 2)

/-- Immediate mode (R93): the operand is the instruction's second byte. -/
def immInstr (m : Byte) (s : State) (f : Byte → State → State) : Result :=
  .next ((f m s).retire 2)

/-- Implied mode (R91) with 2 cycles: the instruction names its registers itself. -/
def impliedInstr (s : State) : Result := .next (s.retire 2)

end Sys2Proof.Machine
end

