-- ==== Sys2Proof/Machine/Arithmetic.lean ====
section
/-! DEFINITION. Add, subtract, compare, increment and decrement (R130 to R140). Every meaning starts after the operand bytes have been fetched (R105). -/

namespace Sys2Proof.Machine

/-! ## ADC -/

/-- R130: decimal when `D = 1` and `DECIMAL_ENABLED` (R144), else binary (R142). -/
def opAdc (m : Byte) (s : State) : State :=
  s.putA (if s.p.d && s.cfg.decimalEnabled then addDecimal s.a m s.p else addBinary s.a m s.p)

/-- ADC ($nn,X), 0x61: R130 with mode R99. -/
def execAdcIndx (b2 : Byte) (s : State) : Result :=
  readInstr (modeIndx b2 s) 6 opAdc

/-- ADC $nn, 0x65: R130 with mode R94. -/
def execAdcZp (b2 : Byte) (s : State) : Result :=
  readInstr (modeZp b2 s) 3 opAdc

/-- ADC #$nn, 0x69: R130 with mode R93. -/
def execAdcImm (m : Byte) (s : State) : Result :=
  immInstr m s opAdc

/-- ADC $nnnn, 0x6D: R130 with mode R97. -/
def execAdcAbs (addr : Addr) (s : State) : Result :=
  readInstr (modeAbs addr s) 4 opAdc

/-- ADC ($nn),Y, 0x71: R130 with mode R100. -/
def execAdcIndy (b2 : Byte) (s : State) : Result :=
  readInstr (modeIndy b2 s) 5 opAdc

/-- ADC $nn,X, 0x75: R130 with mode R95. -/
def execAdcZpx (b2 : Byte) (s : State) : Result :=
  readInstr (modeZpx b2 s) 4 opAdc

/-- ADC $nnnn,Y, 0x79: R130 with mode R98. -/
def execAdcAbsy (addr : Addr) (s : State) : Result :=
  readInstr (modeAbsy addr s) 4 opAdc

/-- ADC $nnnn,X, 0x7D: R130 with mode R98. -/
def execAdcAbsx (addr : Addr) (s : State) : Result :=
  readInstr (modeAbsx addr s) 4 opAdc

/-! ## SBC -/

/-- R131: decimal when `D = 1` and `DECIMAL_ENABLED` (R145), else binary (R143). -/
def opSbc (m : Byte) (s : State) : State :=
  s.putA (if s.p.d && s.cfg.decimalEnabled then subDecimal s.a m s.p else subBinary s.a m s.p)

/-- SBC ($nn,X), 0xE1: R131 with mode R99. -/
def execSbcIndx (b2 : Byte) (s : State) : Result :=
  readInstr (modeIndx b2 s) 6 opSbc

/-- SBC $nn, 0xE5: R131 with mode R94. -/
def execSbcZp (b2 : Byte) (s : State) : Result :=
  readInstr (modeZp b2 s) 3 opSbc

/-- SBC #$nn, 0xE9: R131 with mode R93. -/
def execSbcImm (m : Byte) (s : State) : Result :=
  immInstr m s opSbc

/-- SBC $nnnn, 0xED: R131 with mode R97. -/
def execSbcAbs (addr : Addr) (s : State) : Result :=
  readInstr (modeAbs addr s) 4 opSbc

/-- SBC ($nn),Y, 0xF1: R131 with mode R100. -/
def execSbcIndy (b2 : Byte) (s : State) : Result :=
  readInstr (modeIndy b2 s) 5 opSbc

/-- SBC $nn,X, 0xF5: R131 with mode R95. -/
def execSbcZpx (b2 : Byte) (s : State) : Result :=
  readInstr (modeZpx b2 s) 4 opSbc

/-- SBC $nnnn,Y, 0xF9: R131 with mode R98. -/
def execSbcAbsy (addr : Addr) (s : State) : Result :=
  readInstr (modeAbsy addr s) 4 opSbc

/-- SBC $nnnn,X, 0xFD: R131 with mode R98. -/
def execSbcAbsx (addr : Addr) (s : State) : Result :=
  readInstr (modeAbsx addr s) 4 opSbc

/-! ## CMP -/

/-- R132. -/
def opCmp (m : Byte) (s : State) : State := s.withP (compareFlags s.a m s.p)

/-- CMP ($nn,X), 0xC1: R132 with mode R99. -/
def execCmpIndx (b2 : Byte) (s : State) : Result :=
  readInstr (modeIndx b2 s) 6 opCmp

/-- CMP $nn, 0xC5: R132 with mode R94. -/
def execCmpZp (b2 : Byte) (s : State) : Result :=
  readInstr (modeZp b2 s) 3 opCmp

/-- CMP #$nn, 0xC9: R132 with mode R93. -/
def execCmpImm (m : Byte) (s : State) : Result :=
  immInstr m s opCmp

/-- CMP $nnnn, 0xCD: R132 with mode R97. -/
def execCmpAbs (addr : Addr) (s : State) : Result :=
  readInstr (modeAbs addr s) 4 opCmp

/-- CMP ($nn),Y, 0xD1: R132 with mode R100. -/
def execCmpIndy (b2 : Byte) (s : State) : Result :=
  readInstr (modeIndy b2 s) 5 opCmp

/-- CMP $nn,X, 0xD5: R132 with mode R95. -/
def execCmpZpx (b2 : Byte) (s : State) : Result :=
  readInstr (modeZpx b2 s) 4 opCmp

/-- CMP $nnnn,Y, 0xD9: R132 with mode R98. -/
def execCmpAbsy (addr : Addr) (s : State) : Result :=
  readInstr (modeAbsy addr s) 4 opCmp

/-- CMP $nnnn,X, 0xDD: R132 with mode R98. -/
def execCmpAbsx (addr : Addr) (s : State) : Result :=
  readInstr (modeAbsx addr s) 4 opCmp

/-! ## CPX -/

/-- R133. -/
def opCpx (m : Byte) (s : State) : State := s.withP (compareFlags s.x m s.p)

/-- CPX #$nn, 0xE0: R133 with mode R93. -/
def execCpxImm (m : Byte) (s : State) : Result :=
  immInstr m s opCpx

/-- CPX $nn, 0xE4: R133 with mode R94. -/
def execCpxZp (b2 : Byte) (s : State) : Result :=
  readInstr (modeZp b2 s) 3 opCpx

/-- CPX $nnnn, 0xEC: R133 with mode R97. -/
def execCpxAbs (addr : Addr) (s : State) : Result :=
  readInstr (modeAbs addr s) 4 opCpx

/-! ## CPY -/

/-- R134. -/
def opCpy (m : Byte) (s : State) : State := s.withP (compareFlags s.y m s.p)

/-- CPY #$nn, 0xC0: R134 with mode R93. -/
def execCpyImm (m : Byte) (s : State) : Result :=
  immInstr m s opCpy

/-- CPY $nn, 0xC4: R134 with mode R94. -/
def execCpyZp (b2 : Byte) (s : State) : Result :=
  readInstr (modeZp b2 s) 3 opCpy

/-- CPY $nnnn, 0xCC: R134 with mode R97. -/
def execCpyAbs (addr : Addr) (s : State) : Result :=
  readInstr (modeAbs addr s) 4 opCpy

/-! ## INC -/

/-- INC $nn, 0xE6: R135 with mode R94. -/
def execIncZp (b2 : Byte) (s : State) : Result :=
  rmwInstr (modeZp b2 s) 5 increment

/-- INC $nnnn, 0xEE: R135 with mode R97. -/
def execIncAbs (addr : Addr) (s : State) : Result :=
  rmwInstr (modeAbs addr s) 6 increment

/-- INC $nn,X, 0xF6: R135 with mode R95. -/
def execIncZpx (b2 : Byte) (s : State) : Result :=
  rmwInstr (modeZpx b2 s) 6 increment

/-- INC $nnnn,X, 0xFE: R135 with mode R98. -/
def execIncAbsx (addr : Addr) (s : State) : Result :=
  rmwInstr (modeAbsx addr s) 7 increment

/-! ## DEC -/

/-- DEC $nn, 0xC6: R136 with mode R94. -/
def execDecZp (b2 : Byte) (s : State) : Result :=
  rmwInstr (modeZp b2 s) 5 decrement

/-- DEC $nnnn, 0xCE: R136 with mode R97. -/
def execDecAbs (addr : Addr) (s : State) : Result :=
  rmwInstr (modeAbs addr s) 6 decrement

/-- DEC $nn,X, 0xD6: R136 with mode R95. -/
def execDecZpx (b2 : Byte) (s : State) : Result :=
  rmwInstr (modeZpx b2 s) 6 decrement

/-- DEC $nnnn,X, 0xDE: R136 with mode R98. -/
def execDecAbsx (addr : Addr) (s : State) : Result :=
  rmwInstr (modeAbsx addr s) 7 decrement

/-! ## INX -/

/-- INX, 0xE8: R137 with mode R91. -/
def execInx (s : State) : Result :=
  impliedInstr (s.loadX (s.x + 1#8))

/-! ## INY -/

/-- INY, 0xC8: R138 with mode R91. -/
def execIny (s : State) : Result :=
  impliedInstr (s.loadY (s.y + 1#8))

/-! ## DEX -/

/-- DEX, 0xCA: R139 with mode R91. -/
def execDex (s : State) : Result :=
  impliedInstr (s.loadX (s.x - 1#8))

/-! ## DEY -/

/-- DEY, 0x88: R140 with mode R91. -/
def execDey (s : State) : Result :=
  impliedInstr (s.loadY (s.y - 1#8))

end Sys2Proof.Machine
end

