-- ==== Sys2Proof/Machine/ControlFlow.lean ====
section
/-! DEFINITION. Jumps, subroutine call and return, conditional branches (R170 to R182). Every meaning starts after the operand bytes have been fetched (R105). -/

namespace Sys2Proof.Machine

/-- A conditional branch (R174): taken, `PC` becomes the target of R102; 2 cycles not taken, 3 taken, 4 taken across a page
(R104). The displacement byte has been fetched whether or not the branch is taken. -/
def branchInstr (taken : Bool) (b2 : Byte) (s : State) : Result :=
  if taken then .next ((s.jump (relTarget b2 s)).retire (if relCrossed b2 s then 4 else 3))
  else .next (s.retire 2)

/-! ## JMP -/

/-- JMP $nnnn, 0x4C: R170 with mode R97. -/
def execJmpAbs (target : Addr) (s : State) : Result :=
  .next ((s.jump target).retire 3)

/-- JMP ($nnnn), 0x6C: R170 with mode R101. -/
def execJmpInd (ptr : Addr) (s : State) : Result :=
  let t := modeInd ptr s
  .next ((t.2.jump t.1).retire 5)

/-! ## JSR -/

/-- JSR $nnnn, 0x20 (R172): `PC` addresses the third byte. It is pushed, high byte first; the third byte is fetched after the
pushes, and so may be a byte just pushed. -/
def execJsr (target : Addr) (s : State) : Result :=
  let b3 := fetchOperand (pushWord s.pc s)
  .next ((b3.2.jump (wordOf b3.1 (loByte target))).retire 6)

/-! ## RTS -/

/-- RTS, 0x60 (R173): pull low then high, continue at the pulled word plus 1. -/
def execRts (s : State) : Result :=
  let t := pullWord s
  .next ((t.2.jump (t.1 + 1#16)).retire 6)

/-! ## BPL -/

/-- BPL target, 0x10: R175 with mode R102. -/
def execBpl (b2 : Byte) (s : State) : Result :=
  branchInstr (!s.p.n) b2 s

/-! ## BMI -/

/-- BMI target, 0x30: R176 with mode R102. -/
def execBmi (b2 : Byte) (s : State) : Result :=
  branchInstr s.p.n b2 s

/-! ## BVC -/

/-- BVC target, 0x50: R177 with mode R102. -/
def execBvc (b2 : Byte) (s : State) : Result :=
  branchInstr (!s.p.v) b2 s

/-! ## BVS -/

/-- BVS target, 0x70: R178 with mode R102. -/
def execBvs (b2 : Byte) (s : State) : Result :=
  branchInstr s.p.v b2 s

/-! ## BCC -/

/-- BCC target, 0x90: R179 with mode R102. -/
def execBcc (b2 : Byte) (s : State) : Result :=
  branchInstr (!s.p.c) b2 s

/-! ## BCS -/

/-- BCS target, 0xB0: R180 with mode R102. -/
def execBcs (b2 : Byte) (s : State) : Result :=
  branchInstr s.p.c b2 s

/-! ## BNE -/

/-- BNE target, 0xD0: R181 with mode R102. -/
def execBne (b2 : Byte) (s : State) : Result :=
  branchInstr (!s.p.z) b2 s

/-! ## BEQ -/

/-- BEQ target, 0xF0: R182 with mode R102. -/
def execBeq (b2 : Byte) (s : State) : Result :=
  branchInstr s.p.z b2 s

end Sys2Proof.Machine
end

