-- ==== Sys2Proof/Machine/FlagsSystem.lean ====
section
/-! DEFINITION. Flag instructions, NOP, software interrupt and return (R200 to R209). Every meaning starts after the operand bytes have been fetched (R105). -/

namespace Sys2Proof.Machine

/-! ## CLC -/

/-- CLC, 0x18: R200 with mode R91. -/
def execClc (s : State) : Result :=
  impliedInstr (s.withP { s.p with c := false })

/-! ## SEC -/

/-- SEC, 0x38: R201 with mode R91. -/
def execSec (s : State) : Result :=
  impliedInstr (s.withP { s.p with c := true })

/-! ## CLI -/

/-- CLI, 0x58: R202 with mode R91. -/
def execCli (s : State) : Result :=
  impliedInstr (s.withP { s.p with i := false })

/-! ## SEI -/

/-- SEI, 0x78: R203 with mode R91. -/
def execSei (s : State) : Result :=
  impliedInstr (s.withP { s.p with i := true })

/-! ## CLD -/

/-- CLD, 0xD8: R204 with mode R91. -/
def execCld (s : State) : Result :=
  impliedInstr (s.withP { s.p with d := false })

/-! ## SED -/

/-- SED, 0xF8: R205 with mode R91. -/
def execSed (s : State) : Result :=
  impliedInstr (s.withP { s.p with d := true })

/-! ## CLV -/

/-- CLV, 0xB8: R206 with mode R91. -/
def execClv (s : State) : Result :=
  impliedInstr (s.withP { s.p with v := false })

/-! ## NOP -/

/-- NOP, 0xEA: R207 with mode R91. -/
def execNop (s : State) : Result :=
  impliedInstr s

/-! ## BRK -/

/-- BRK, 0x00 (R208): skip the byte after the opcode, then enter through the IRQ vector with bit 4 pushed as 1. -/
def execBrk (s : State) : Result :=
  .next ((raiseInterrupt .brk s.advance).retire 7)

/-! ## RTI -/

/-- RTI, 0x40 (R209): pull the status, then PC low and high; no increment. -/
def execRti (s : State) : Result :=
  .next ((returnFromInterrupt s).retire 6)

end Sys2Proof.Machine
end

