-- ==== Sys2Proof/Machine/LoadStore.lean ====
section
/-! DEFINITION. Loads, stores and register transfers (R110 to R121). Every meaning starts after the operand bytes have been fetched (R105). -/

namespace Sys2Proof.Machine

/-! ## LDA -/

/-- R110: `A <- M; SetNZ(A)`. -/
def opLda (m : Byte) (s : State) : State := s.loadA m

/-- LDA ($nn,X), 0xA1: R110 with mode R99. -/
def execLdaIndx (b2 : Byte) (s : State) : Result :=
  readInstr (modeIndx b2 s) 6 opLda

/-- LDA $nn, 0xA5: R110 with mode R94. -/
def execLdaZp (b2 : Byte) (s : State) : Result :=
  readInstr (modeZp b2 s) 3 opLda

/-- LDA #$nn, 0xA9: R110 with mode R93. -/
def execLdaImm (m : Byte) (s : State) : Result :=
  immInstr m s opLda

/-- LDA $nnnn, 0xAD: R110 with mode R97. -/
def execLdaAbs (addr : Addr) (s : State) : Result :=
  readInstr (modeAbs addr s) 4 opLda

/-- LDA ($nn),Y, 0xB1: R110 with mode R100. -/
def execLdaIndy (b2 : Byte) (s : State) : Result :=
  readInstr (modeIndy b2 s) 5 opLda

/-- LDA $nn,X, 0xB5: R110 with mode R95. -/
def execLdaZpx (b2 : Byte) (s : State) : Result :=
  readInstr (modeZpx b2 s) 4 opLda

/-- LDA $nnnn,Y, 0xB9: R110 with mode R98. -/
def execLdaAbsy (addr : Addr) (s : State) : Result :=
  readInstr (modeAbsy addr s) 4 opLda

/-- LDA $nnnn,X, 0xBD: R110 with mode R98. -/
def execLdaAbsx (addr : Addr) (s : State) : Result :=
  readInstr (modeAbsx addr s) 4 opLda

/-! ## LDX -/

/-- R111: `X <- M; SetNZ(X)`. -/
def opLdx (m : Byte) (s : State) : State := s.loadX m

/-- LDX #$nn, 0xA2: R111 with mode R93. -/
def execLdxImm (m : Byte) (s : State) : Result :=
  immInstr m s opLdx

/-- LDX $nn, 0xA6: R111 with mode R94. -/
def execLdxZp (b2 : Byte) (s : State) : Result :=
  readInstr (modeZp b2 s) 3 opLdx

/-- LDX $nnnn, 0xAE: R111 with mode R97. -/
def execLdxAbs (addr : Addr) (s : State) : Result :=
  readInstr (modeAbs addr s) 4 opLdx

/-- LDX $nn,Y, 0xB6: R111 with mode R96. -/
def execLdxZpy (b2 : Byte) (s : State) : Result :=
  readInstr (modeZpy b2 s) 4 opLdx

/-- LDX $nnnn,Y, 0xBE: R111 with mode R98. -/
def execLdxAbsy (addr : Addr) (s : State) : Result :=
  readInstr (modeAbsy addr s) 4 opLdx

/-! ## LDY -/

/-- R112: `Y <- M; SetNZ(Y)`. -/
def opLdy (m : Byte) (s : State) : State := s.loadY m

/-- LDY #$nn, 0xA0: R112 with mode R93. -/
def execLdyImm (m : Byte) (s : State) : Result :=
  immInstr m s opLdy

/-- LDY $nn, 0xA4: R112 with mode R94. -/
def execLdyZp (b2 : Byte) (s : State) : Result :=
  readInstr (modeZp b2 s) 3 opLdy

/-- LDY $nnnn, 0xAC: R112 with mode R97. -/
def execLdyAbs (addr : Addr) (s : State) : Result :=
  readInstr (modeAbs addr s) 4 opLdy

/-- LDY $nn,X, 0xB4: R112 with mode R95. -/
def execLdyZpx (b2 : Byte) (s : State) : Result :=
  readInstr (modeZpx b2 s) 4 opLdy

/-- LDY $nnnn,X, 0xBC: R112 with mode R98. -/
def execLdyAbsx (addr : Addr) (s : State) : Result :=
  readInstr (modeAbsx addr s) 4 opLdy

/-! ## STA -/

/-- STA ($nn,X), 0x81: R113 with mode R99. -/
def execStaIndx (b2 : Byte) (s : State) : Result :=
  writeInstr (modeIndx b2 s) 6 s.a

/-- STA $nn, 0x85: R113 with mode R94. -/
def execStaZp (b2 : Byte) (s : State) : Result :=
  writeInstr (modeZp b2 s) 3 s.a

/-- STA $nnnn, 0x8D: R113 with mode R97. -/
def execStaAbs (addr : Addr) (s : State) : Result :=
  writeInstr (modeAbs addr s) 4 s.a

/-- STA ($nn),Y, 0x91: R113 with mode R100. -/
def execStaIndy (b2 : Byte) (s : State) : Result :=
  writeInstr (modeIndy b2 s) 6 s.a

/-- STA $nn,X, 0x95: R113 with mode R95. -/
def execStaZpx (b2 : Byte) (s : State) : Result :=
  writeInstr (modeZpx b2 s) 4 s.a

/-- STA $nnnn,Y, 0x99: R113 with mode R98. -/
def execStaAbsy (addr : Addr) (s : State) : Result :=
  writeInstr (modeAbsy addr s) 5 s.a

/-- STA $nnnn,X, 0x9D: R113 with mode R98. -/
def execStaAbsx (addr : Addr) (s : State) : Result :=
  writeInstr (modeAbsx addr s) 5 s.a

/-! ## STX -/

/-- STX $nn, 0x86: R114 with mode R94. -/
def execStxZp (b2 : Byte) (s : State) : Result :=
  writeInstr (modeZp b2 s) 3 s.x

/-- STX $nnnn, 0x8E: R114 with mode R97. -/
def execStxAbs (addr : Addr) (s : State) : Result :=
  writeInstr (modeAbs addr s) 4 s.x

/-- STX $nn,Y, 0x96: R114 with mode R96. -/
def execStxZpy (b2 : Byte) (s : State) : Result :=
  writeInstr (modeZpy b2 s) 4 s.x

/-! ## STY -/

/-- STY $nn, 0x84: R115 with mode R94. -/
def execStyZp (b2 : Byte) (s : State) : Result :=
  writeInstr (modeZp b2 s) 3 s.y

/-- STY $nnnn, 0x8C: R115 with mode R97. -/
def execStyAbs (addr : Addr) (s : State) : Result :=
  writeInstr (modeAbs addr s) 4 s.y

/-- STY $nn,X, 0x94: R115 with mode R95. -/
def execStyZpx (b2 : Byte) (s : State) : Result :=
  writeInstr (modeZpx b2 s) 4 s.y

/-! ## TAX -/

/-- TAX, 0xAA: R116 with mode R91. -/
def execTax (s : State) : Result :=
  impliedInstr (s.loadX s.a)

/-! ## TAY -/

/-- TAY, 0xA8: R117 with mode R91. -/
def execTay (s : State) : Result :=
  impliedInstr (s.loadY s.a)

/-! ## TXA -/

/-- TXA, 0x8A: R118 with mode R91. -/
def execTxa (s : State) : Result :=
  impliedInstr (s.loadA s.x)

/-! ## TYA -/

/-- TYA, 0x98: R119 with mode R91. -/
def execTya (s : State) : Result :=
  impliedInstr (s.loadA s.y)

/-! ## TSX -/

/-- TSX, 0xBA: R120 with mode R91. -/
def execTsx (s : State) : Result :=
  impliedInstr (s.loadX s.sp)

/-! ## TXS -/

/-- TXS, 0x9A: R121 with mode R91. -/
def execTxs (s : State) : Result :=
  impliedInstr (s.withSp s.x)

end Sys2Proof.Machine
end

