-- ==== Sys2Proof/Machine/Logic.lean ====
section
/-! DEFINITION. Logic, bit test, shifts and rotates (R150 to R157). Every meaning starts after the operand bytes have been fetched (R105). -/

namespace Sys2Proof.Machine

/-! ## AND -/

/-- R150: `A <- A & M; SetNZ(A)`. -/
def opAnd (m : Byte) (s : State) : State := s.loadA (s.a &&& m)

/-- AND ($nn,X), 0x21: R150 with mode R99. -/
def execAndIndx (b2 : Byte) (s : State) : Result :=
  readInstr (modeIndx b2 s) 6 opAnd

/-- AND $nn, 0x25: R150 with mode R94. -/
def execAndZp (b2 : Byte) (s : State) : Result :=
  readInstr (modeZp b2 s) 3 opAnd

/-- AND #$nn, 0x29: R150 with mode R93. -/
def execAndImm (m : Byte) (s : State) : Result :=
  immInstr m s opAnd

/-- AND $nnnn, 0x2D: R150 with mode R97. -/
def execAndAbs (addr : Addr) (s : State) : Result :=
  readInstr (modeAbs addr s) 4 opAnd

/-- AND ($nn),Y, 0x31: R150 with mode R100. -/
def execAndIndy (b2 : Byte) (s : State) : Result :=
  readInstr (modeIndy b2 s) 5 opAnd

/-- AND $nn,X, 0x35: R150 with mode R95. -/
def execAndZpx (b2 : Byte) (s : State) : Result :=
  readInstr (modeZpx b2 s) 4 opAnd

/-- AND $nnnn,Y, 0x39: R150 with mode R98. -/
def execAndAbsy (addr : Addr) (s : State) : Result :=
  readInstr (modeAbsy addr s) 4 opAnd

/-- AND $nnnn,X, 0x3D: R150 with mode R98. -/
def execAndAbsx (addr : Addr) (s : State) : Result :=
  readInstr (modeAbsx addr s) 4 opAnd

/-! ## ORA -/

/-- R151: `A <- A | M; SetNZ(A)`. -/
def opOra (m : Byte) (s : State) : State := s.loadA (s.a ||| m)

/-- ORA ($nn,X), 0x01: R151 with mode R99. -/
def execOraIndx (b2 : Byte) (s : State) : Result :=
  readInstr (modeIndx b2 s) 6 opOra

/-- ORA $nn, 0x05: R151 with mode R94. -/
def execOraZp (b2 : Byte) (s : State) : Result :=
  readInstr (modeZp b2 s) 3 opOra

/-- ORA #$nn, 0x09: R151 with mode R93. -/
def execOraImm (m : Byte) (s : State) : Result :=
  immInstr m s opOra

/-- ORA $nnnn, 0x0D: R151 with mode R97. -/
def execOraAbs (addr : Addr) (s : State) : Result :=
  readInstr (modeAbs addr s) 4 opOra

/-- ORA ($nn),Y, 0x11: R151 with mode R100. -/
def execOraIndy (b2 : Byte) (s : State) : Result :=
  readInstr (modeIndy b2 s) 5 opOra

/-- ORA $nn,X, 0x15: R151 with mode R95. -/
def execOraZpx (b2 : Byte) (s : State) : Result :=
  readInstr (modeZpx b2 s) 4 opOra

/-- ORA $nnnn,Y, 0x19: R151 with mode R98. -/
def execOraAbsy (addr : Addr) (s : State) : Result :=
  readInstr (modeAbsy addr s) 4 opOra

/-- ORA $nnnn,X, 0x1D: R151 with mode R98. -/
def execOraAbsx (addr : Addr) (s : State) : Result :=
  readInstr (modeAbsx addr s) 4 opOra

/-! ## EOR -/

/-- R152: `A <- A ^ M; SetNZ(A)`. -/
def opEor (m : Byte) (s : State) : State := s.loadA (s.a ^^^ m)

/-- EOR ($nn,X), 0x41: R152 with mode R99. -/
def execEorIndx (b2 : Byte) (s : State) : Result :=
  readInstr (modeIndx b2 s) 6 opEor

/-- EOR $nn, 0x45: R152 with mode R94. -/
def execEorZp (b2 : Byte) (s : State) : Result :=
  readInstr (modeZp b2 s) 3 opEor

/-- EOR #$nn, 0x49: R152 with mode R93. -/
def execEorImm (m : Byte) (s : State) : Result :=
  immInstr m s opEor

/-- EOR $nnnn, 0x4D: R152 with mode R97. -/
def execEorAbs (addr : Addr) (s : State) : Result :=
  readInstr (modeAbs addr s) 4 opEor

/-- EOR ($nn),Y, 0x51: R152 with mode R100. -/
def execEorIndy (b2 : Byte) (s : State) : Result :=
  readInstr (modeIndy b2 s) 5 opEor

/-- EOR $nn,X, 0x55: R152 with mode R95. -/
def execEorZpx (b2 : Byte) (s : State) : Result :=
  readInstr (modeZpx b2 s) 4 opEor

/-- EOR $nnnn,Y, 0x59: R152 with mode R98. -/
def execEorAbsy (addr : Addr) (s : State) : Result :=
  readInstr (modeAbsy addr s) 4 opEor

/-- EOR $nnnn,X, 0x5D: R152 with mode R98. -/
def execEorAbsx (addr : Addr) (s : State) : Result :=
  readInstr (modeAbsx addr s) 4 opEor

/-! ## BIT -/

/-- R153. -/
def opBit (m : Byte) (s : State) : State := s.withP (bitFlags s.a m s.p)

/-- BIT $nn, 0x24: R153 with mode R94. -/
def execBitZp (b2 : Byte) (s : State) : Result :=
  readInstr (modeZp b2 s) 3 opBit

/-- BIT $nnnn, 0x2C: R153 with mode R97. -/
def execBitAbs (addr : Addr) (s : State) : Result :=
  readInstr (modeAbs addr s) 4 opBit

/-! ## ASL -/

/-- ASL $nn, 0x06: R154 with mode R94. -/
def execAslZp (b2 : Byte) (s : State) : Result :=
  rmwInstr (modeZp b2 s) 5 shiftLeft

/-- ASL A, 0x0A: R154 with mode R92. -/
def execAslAcc (s : State) : Result :=
  accInstr s shiftLeft

/-- ASL $nnnn, 0x0E: R154 with mode R97. -/
def execAslAbs (addr : Addr) (s : State) : Result :=
  rmwInstr (modeAbs addr s) 6 shiftLeft

/-- ASL $nn,X, 0x16: R154 with mode R95. -/
def execAslZpx (b2 : Byte) (s : State) : Result :=
  rmwInstr (modeZpx b2 s) 6 shiftLeft

/-- ASL $nnnn,X, 0x1E: R154 with mode R98. -/
def execAslAbsx (addr : Addr) (s : State) : Result :=
  rmwInstr (modeAbsx addr s) 7 shiftLeft

/-! ## LSR -/

/-- LSR $nn, 0x46: R155 with mode R94. -/
def execLsrZp (b2 : Byte) (s : State) : Result :=
  rmwInstr (modeZp b2 s) 5 shiftRight

/-- LSR A, 0x4A: R155 with mode R92. -/
def execLsrAcc (s : State) : Result :=
  accInstr s shiftRight

/-- LSR $nnnn, 0x4E: R155 with mode R97. -/
def execLsrAbs (addr : Addr) (s : State) : Result :=
  rmwInstr (modeAbs addr s) 6 shiftRight

/-- LSR $nn,X, 0x56: R155 with mode R95. -/
def execLsrZpx (b2 : Byte) (s : State) : Result :=
  rmwInstr (modeZpx b2 s) 6 shiftRight

/-- LSR $nnnn,X, 0x5E: R155 with mode R98. -/
def execLsrAbsx (addr : Addr) (s : State) : Result :=
  rmwInstr (modeAbsx addr s) 7 shiftRight

/-! ## ROL -/

/-- ROL $nn, 0x26: R156 with mode R94. -/
def execRolZp (b2 : Byte) (s : State) : Result :=
  rmwInstr (modeZp b2 s) 5 rotateLeft

/-- ROL A, 0x2A: R156 with mode R92. -/
def execRolAcc (s : State) : Result :=
  accInstr s rotateLeft

/-- ROL $nnnn, 0x2E: R156 with mode R97. -/
def execRolAbs (addr : Addr) (s : State) : Result :=
  rmwInstr (modeAbs addr s) 6 rotateLeft

/-- ROL $nn,X, 0x36: R156 with mode R95. -/
def execRolZpx (b2 : Byte) (s : State) : Result :=
  rmwInstr (modeZpx b2 s) 6 rotateLeft

/-- ROL $nnnn,X, 0x3E: R156 with mode R98. -/
def execRolAbsx (addr : Addr) (s : State) : Result :=
  rmwInstr (modeAbsx addr s) 7 rotateLeft

/-! ## ROR -/

/-- ROR $nn, 0x66: R157 with mode R94. -/
def execRorZp (b2 : Byte) (s : State) : Result :=
  rmwInstr (modeZp b2 s) 5 rotateRight

/-- ROR A, 0x6A: R157 with mode R92. -/
def execRorAcc (s : State) : Result :=
  accInstr s rotateRight

/-- ROR $nnnn, 0x6E: R157 with mode R97. -/
def execRorAbs (addr : Addr) (s : State) : Result :=
  rmwInstr (modeAbs addr s) 6 rotateRight

/-- ROR $nn,X, 0x76: R157 with mode R95. -/
def execRorZpx (b2 : Byte) (s : State) : Result :=
  rmwInstr (modeZpx b2 s) 6 rotateRight

/-- ROR $nnnn,X, 0x7E: R157 with mode R98. -/
def execRorAbsx (addr : Addr) (s : State) : Result :=
  rmwInstr (modeAbsx addr s) 7 rotateRight

end Sys2Proof.Machine
end

