-- ==== Sys2Proof/Machine/Stack.lean ====
section
/-! DEFINITION. Stack push and pull instructions (R190 to R193). Every meaning starts after the operand bytes have been fetched (R105). -/

namespace Sys2Proof.Machine

/-! ## PHA -/

/-- PHA, 0x48: R190 with mode R91. -/
def execPha (s : State) : Result :=
  .next ((push s.a s).retire 3)

/-! ## PLA -/

/-- PLA, 0x68: R191 with mode R91. -/
def execPla (s : State) : Result :=
  let v := pull s
  .next ((v.2.loadA v.1).retire 4)

/-! ## PHP -/

/-- PHP, 0x08 (R192): the pushed byte has bits 5 and 4 set. -/
def execPhp (s : State) : Result :=
  .next ((push (packP true s.p) s).retire 3)

/-! ## PLP -/

/-- PLP, 0x28 (R193): all six flags from the pulled byte; bits 5 and 4 ignored. -/
def execPlp (s : State) : Result :=
  let v := pull s
  .next ((v.2.withP (unpackP v.1)).retire 4)

end Sys2Proof.Machine
end

