-- ==== Sys2Proof/Machine/Undefined.lean ====
section
/-! DEFINITION. The undefined opcode bytes (R220, R221): what the parameter `UNDEF_POLICY` says. -/

namespace Sys2Proof.Machine

/-- `for i in 1 .. k: FetchOperand(PC); PC <- NextPC(1)` (R220). -/
def skipOperands : Nat → State → State
  | 0, s => s
  | k + 1, s => skipOperands k (fetchOperand s).2

/-- The `jam` outcome of R220: `PC` back onto the undefined byte, the interrupt check not reached, 1 cycle reported. -/
def jam (s : State) : State :=
  { s with pc := s.mask (s.pc - 1#16), phase := .atFetch, cyc := 0, reported := 1 }

/-- An undefined opcode byte (R220). Under `refuse`, and where a table has no row for the byte (R221 requires one), "the
model gives the step no meaning". -/
def execUndefined (op : Byte) (s : State) : Result :=
  match s.cfg.undefPolicy with
  | .refuse => .refused (.undefinedOpcode op)
  | .table rows =>
    match rows.lookup op with
    | some (.nop len cycles) => .next ((skipOperands (len - 1) s).retire cycles)
    | some .jam => .next (jam s)
    | some (.op name) => .refused (.undefinedOperation op name)
    | none => .refused (.undefinedOpcode op)

end Sys2Proof.Machine
end

