-- ==== Sys2Proof/Syntax.lean ====
section
/-! DEFINITION. The instructions: one constructor for each of the 151 documented rows of spec/opcode_table.json (R75), named
mnemonic and addressing mode, and `undefined op` for the 105 rows `UNDEFINED`, which carries its opcode byte (R76). An
operand is what R73 assembles from the operand bytes: an immediate or displacement byte, a page-zero byte, or the 16-bit
word {b3, b2}. -/

namespace Sys2Proof

inductive Instr where
  -- Loads, stores and register transfers (R110 to R121).
  | ldaIndx (b2 : Byte)  -- 0xA1 LDA (zp,X)
  | ldaZp (b2 : Byte)  -- 0xA5 LDA zero-page
  | ldaImm (m : Byte)  -- 0xA9 LDA immediate
  | ldaAbs (addr : Addr)  -- 0xAD LDA absolute
  | ldaIndy (b2 : Byte)  -- 0xB1 LDA (zp),Y
  | ldaZpx (b2 : Byte)  -- 0xB5 LDA zero-page,X
  | ldaAbsy (addr : Addr)  -- 0xB9 LDA absolute,Y
  | ldaAbsx (addr : Addr)  -- 0xBD LDA absolute,X
  | ldxImm (m : Byte)  -- 0xA2 LDX immediate
  | ldxZp (b2 : Byte)  -- 0xA6 LDX zero-page
  | ldxAbs (addr : Addr)  -- 0xAE LDX absolute
  | ldxZpy (b2 : Byte)  -- 0xB6 LDX zero-page,Y
  | ldxAbsy (addr : Addr)  -- 0xBE LDX absolute,Y
  | ldyImm (m : Byte)  -- 0xA0 LDY immediate
  | ldyZp (b2 : Byte)  -- 0xA4 LDY zero-page
  | ldyAbs (addr : Addr)  -- 0xAC LDY absolute
  | ldyZpx (b2 : Byte)  -- 0xB4 LDY zero-page,X
  | ldyAbsx (addr : Addr)  -- 0xBC LDY absolute,X
  | staIndx (b2 : Byte)  -- 0x81 STA (zp,X)
  | staZp (b2 : Byte)  -- 0x85 STA zero-page
  | staAbs (addr : Addr)  -- 0x8D STA absolute
  | staIndy (b2 : Byte)  -- 0x91 STA (zp),Y
  | staZpx (b2 : Byte)  -- 0x95 STA zero-page,X
  | staAbsy (addr : Addr)  -- 0x99 STA absolute,Y
  | staAbsx (addr : Addr)  -- 0x9D STA absolute,X
  | stxZp (b2 : Byte)  -- 0x86 STX zero-page
  | stxAbs (addr : Addr)  -- 0x8E STX absolute
  | stxZpy (b2 : Byte)  -- 0x96 STX zero-page,Y
  | styZp (b2 : Byte)  -- 0x84 STY zero-page
  | styAbs (addr : Addr)  -- 0x8C STY absolute
  | styZpx (b2 : Byte)  -- 0x94 STY zero-page,X
  | tax  -- 0xAA TAX implied
  | tay  -- 0xA8 TAY implied
  | txa  -- 0x8A TXA implied
  | tya  -- 0x98 TYA implied
  | tsx  -- 0xBA TSX implied
  | txs  -- 0x9A TXS implied
  -- Arithmetic, compare, increment and decrement (R130 to R140).
  | adcIndx (b2 : Byte)  -- 0x61 ADC (zp,X)
  | adcZp (b2 : Byte)  -- 0x65 ADC zero-page
  | adcImm (m : Byte)  -- 0x69 ADC immediate
  | adcAbs (addr : Addr)  -- 0x6D ADC absolute
  | adcIndy (b2 : Byte)  -- 0x71 ADC (zp),Y
  | adcZpx (b2 : Byte)  -- 0x75 ADC zero-page,X
  | adcAbsy (addr : Addr)  -- 0x79 ADC absolute,Y
  | adcAbsx (addr : Addr)  -- 0x7D ADC absolute,X
  | sbcIndx (b2 : Byte)  -- 0xE1 SBC (zp,X)
  | sbcZp (b2 : Byte)  -- 0xE5 SBC zero-page
  | sbcImm (m : Byte)  -- 0xE9 SBC immediate
  | sbcAbs (addr : Addr)  -- 0xED SBC absolute
  | sbcIndy (b2 : Byte)  -- 0xF1 SBC (zp),Y
  | sbcZpx (b2 : Byte)  -- 0xF5 SBC zero-page,X
  | sbcAbsy (addr : Addr)  -- 0xF9 SBC absolute,Y
  | sbcAbsx (addr : Addr)  -- 0xFD SBC absolute,X
  | cmpIndx (b2 : Byte)  -- 0xC1 CMP (zp,X)
  | cmpZp (b2 : Byte)  -- 0xC5 CMP zero-page
  | cmpImm (m : Byte)  -- 0xC9 CMP immediate
  | cmpAbs (addr : Addr)  -- 0xCD CMP absolute
  | cmpIndy (b2 : Byte)  -- 0xD1 CMP (zp),Y
  | cmpZpx (b2 : Byte)  -- 0xD5 CMP zero-page,X
  | cmpAbsy (addr : Addr)  -- 0xD9 CMP absolute,Y
  | cmpAbsx (addr : Addr)  -- 0xDD CMP absolute,X
  | cpxImm (m : Byte)  -- 0xE0 CPX immediate
  | cpxZp (b2 : Byte)  -- 0xE4 CPX zero-page
  | cpxAbs (addr : Addr)  -- 0xEC CPX absolute
  | cpyImm (m : Byte)  -- 0xC0 CPY immediate
  | cpyZp (b2 : Byte)  -- 0xC4 CPY zero-page
  | cpyAbs (addr : Addr)  -- 0xCC CPY absolute
  | incZp (b2 : Byte)  -- 0xE6 INC zero-page
  | incAbs (addr : Addr)  -- 0xEE INC absolute
  | incZpx (b2 : Byte)  -- 0xF6 INC zero-page,X
  | incAbsx (addr : Addr)  -- 0xFE INC absolute,X
  | decZp (b2 : Byte)  -- 0xC6 DEC zero-page
  | decAbs (addr : Addr)  -- 0xCE DEC absolute
  | decZpx (b2 : Byte)  -- 0xD6 DEC zero-page,X
  | decAbsx (addr : Addr)  -- 0xDE DEC absolute,X
  | inx  -- 0xE8 INX implied
  | iny  -- 0xC8 INY implied
  | dex  -- 0xCA DEX implied
  | dey  -- 0x88 DEY implied
  -- Logic, bit test, shifts and rotates (R150 to R157).
  | andIndx (b2 : Byte)  -- 0x21 AND (zp,X)
  | andZp (b2 : Byte)  -- 0x25 AND zero-page
  | andImm (m : Byte)  -- 0x29 AND immediate
  | andAbs (addr : Addr)  -- 0x2D AND absolute
  | andIndy (b2 : Byte)  -- 0x31 AND (zp),Y
  | andZpx (b2 : Byte)  -- 0x35 AND zero-page,X
  | andAbsy (addr : Addr)  -- 0x39 AND absolute,Y
  | andAbsx (addr : Addr)  -- 0x3D AND absolute,X
  | oraIndx (b2 : Byte)  -- 0x01 ORA (zp,X)
  | oraZp (b2 : Byte)  -- 0x05 ORA zero-page
  | oraImm (m : Byte)  -- 0x09 ORA immediate
  | oraAbs (addr : Addr)  -- 0x0D ORA absolute
  | oraIndy (b2 : Byte)  -- 0x11 ORA (zp),Y
  | oraZpx (b2 : Byte)  -- 0x15 ORA zero-page,X
  | oraAbsy (addr : Addr)  -- 0x19 ORA absolute,Y
  | oraAbsx (addr : Addr)  -- 0x1D ORA absolute,X
  | eorIndx (b2 : Byte)  -- 0x41 EOR (zp,X)
  | eorZp (b2 : Byte)  -- 0x45 EOR zero-page
  | eorImm (m : Byte)  -- 0x49 EOR immediate
  | eorAbs (addr : Addr)  -- 0x4D EOR absolute
  | eorIndy (b2 : Byte)  -- 0x51 EOR (zp),Y
  | eorZpx (b2 : Byte)  -- 0x55 EOR zero-page,X
  | eorAbsy (addr : Addr)  -- 0x59 EOR absolute,Y
  | eorAbsx (addr : Addr)  -- 0x5D EOR absolute,X
  | bitZp (b2 : Byte)  -- 0x24 BIT zero-page
  | bitAbs (addr : Addr)  -- 0x2C BIT absolute
  | aslZp (b2 : Byte)  -- 0x06 ASL zero-page
  | aslAcc  -- 0x0A ASL accumulator
  | aslAbs (addr : Addr)  -- 0x0E ASL absolute
  | aslZpx (b2 : Byte)  -- 0x16 ASL zero-page,X
  | aslAbsx (addr : Addr)  -- 0x1E ASL absolute,X
  | lsrZp (b2 : Byte)  -- 0x46 LSR zero-page
  | lsrAcc  -- 0x4A LSR accumulator
  | lsrAbs (addr : Addr)  -- 0x4E LSR absolute
  | lsrZpx (b2 : Byte)  -- 0x56 LSR zero-page,X
  | lsrAbsx (addr : Addr)  -- 0x5E LSR absolute,X
  | rolZp (b2 : Byte)  -- 0x26 ROL zero-page
  | rolAcc  -- 0x2A ROL accumulator
  | rolAbs (addr : Addr)  -- 0x2E ROL absolute
  | rolZpx (b2 : Byte)  -- 0x36 ROL zero-page,X
  | rolAbsx (addr : Addr)  -- 0x3E ROL absolute,X
  | rorZp (b2 : Byte)  -- 0x66 ROR zero-page
  | rorAcc  -- 0x6A ROR accumulator
  | rorAbs (addr : Addr)  -- 0x6E ROR absolute
  | rorZpx (b2 : Byte)  -- 0x76 ROR zero-page,X
  | rorAbsx (addr : Addr)  -- 0x7E ROR absolute,X
  -- Jumps, subroutine call and return, conditional branches (R170 to R182).
  | jmpAbs (target : Addr)  -- 0x4C JMP absolute
  | jmpInd (ptr : Addr)  -- 0x6C JMP indirect
  | jsr (target : Addr)  -- 0x20 JSR absolute
  | rts  -- 0x60 RTS implied
  | bpl (b2 : Byte)  -- 0x10 BPL relative
  | bmi (b2 : Byte)  -- 0x30 BMI relative
  | bvc (b2 : Byte)  -- 0x50 BVC relative
  | bvs (b2 : Byte)  -- 0x70 BVS relative
  | bcc (b2 : Byte)  -- 0x90 BCC relative
  | bcs (b2 : Byte)  -- 0xB0 BCS relative
  | bne (b2 : Byte)  -- 0xD0 BNE relative
  | beq (b2 : Byte)  -- 0xF0 BEQ relative
  -- Stack instructions (R190 to R193).
  | pha  -- 0x48 PHA implied
  | pla  -- 0x68 PLA implied
  | php  -- 0x08 PHP implied
  | plp  -- 0x28 PLP implied
  -- Flag instructions, NOP, BRK and RTI (R200 to R209).
  | clc  -- 0x18 CLC implied
  | sec  -- 0x38 SEC implied
  | cli  -- 0x58 CLI implied
  | sei  -- 0x78 SEI implied
  | cld  -- 0xD8 CLD implied
  | sed  -- 0xF8 SED implied
  | clv  -- 0xB8 CLV implied
  | nop  -- 0xEA NOP implied
  | brk  -- 0x00 BRK implied
  | rti  -- 0x40 RTI implied
  -- The undefined opcode bytes (R76, R220).
  | undefined (op : Byte)
  deriving DecidableEq, Repr

end Sys2Proof
end

