-- ==== Sys2Proof/Machine/Dispatch.lean ====
section
/-! DEFINITION. One arm for each constructor of Instr: a direct call of its meaning. -/

namespace Sys2Proof.Machine

def exec (i : Instr) (s : State) : Host.Outcome State Fault Refusal :=
  match i with
  -- Loads, stores and register transfers (R110 to R121).
  | .ldaIndx b2 => Sys2Proof.Machine.execLdaIndx b2 s
  | .ldaZp b2 => Sys2Proof.Machine.execLdaZp b2 s
  | .ldaImm m => Sys2Proof.Machine.execLdaImm m s
  | .ldaAbs addr => Sys2Proof.Machine.execLdaAbs addr s
  | .ldaIndy b2 => Sys2Proof.Machine.execLdaIndy b2 s
  | .ldaZpx b2 => Sys2Proof.Machine.execLdaZpx b2 s
  | .ldaAbsy addr => Sys2Proof.Machine.execLdaAbsy addr s
  | .ldaAbsx addr => Sys2Proof.Machine.execLdaAbsx addr s
  | .ldxImm m => Sys2Proof.Machine.execLdxImm m s
  | .ldxZp b2 => Sys2Proof.Machine.execLdxZp b2 s
  | .ldxAbs addr => Sys2Proof.Machine.execLdxAbs addr s
  | .ldxZpy b2 => Sys2Proof.Machine.execLdxZpy b2 s
  | .ldxAbsy addr => Sys2Proof.Machine.execLdxAbsy addr s
  | .ldyImm m => Sys2Proof.Machine.execLdyImm m s
  | .ldyZp b2 => Sys2Proof.Machine.execLdyZp b2 s
  | .ldyAbs addr => Sys2Proof.Machine.execLdyAbs addr s
  | .ldyZpx b2 => Sys2Proof.Machine.execLdyZpx b2 s
  | .ldyAbsx addr => Sys2Proof.Machine.execLdyAbsx addr s
  | .staIndx b2 => Sys2Proof.Machine.execStaIndx b2 s
  | .staZp b2 => Sys2Proof.Machine.execStaZp b2 s
  | .staAbs addr => Sys2Proof.Machine.execStaAbs addr s
  | .staIndy b2 => Sys2Proof.Machine.execStaIndy b2 s
  | .staZpx b2 => Sys2Proof.Machine.execStaZpx b2 s
  | .staAbsy addr => Sys2Proof.Machine.execStaAbsy addr s
  | .staAbsx addr => Sys2Proof.Machine.execStaAbsx addr s
  | .stxZp b2 => Sys2Proof.Machine.execStxZp b2 s
  | .stxAbs addr => Sys2Proof.Machine.execStxAbs addr s
  | .stxZpy b2 => Sys2Proof.Machine.execStxZpy b2 s
  | .styZp b2 => Sys2Proof.Machine.execStyZp b2 s
  | .styAbs addr => Sys2Proof.Machine.execStyAbs addr s
  | .styZpx b2 => Sys2Proof.Machine.execStyZpx b2 s
  | .tax => Sys2Proof.Machine.execTax s
  | .tay => Sys2Proof.Machine.execTay s
  | .txa => Sys2Proof.Machine.execTxa s
  | .tya => Sys2Proof.Machine.execTya s
  | .tsx => Sys2Proof.Machine.execTsx s
  | .txs => Sys2Proof.Machine.execTxs s
  -- Arithmetic, compare, increment and decrement (R130 to R140).
  | .adcIndx b2 => Sys2Proof.Machine.execAdcIndx b2 s
  | .adcZp b2 => Sys2Proof.Machine.execAdcZp b2 s
  | .adcImm m => Sys2Proof.Machine.execAdcImm m s
  | .adcAbs addr => Sys2Proof.Machine.execAdcAbs addr s
  | .adcIndy b2 => Sys2Proof.Machine.execAdcIndy b2 s
  | .adcZpx b2 => Sys2Proof.Machine.execAdcZpx b2 s
  | .adcAbsy addr => Sys2Proof.Machine.execAdcAbsy addr s
  | .adcAbsx addr => Sys2Proof.Machine.execAdcAbsx addr s
  | .sbcIndx b2 => Sys2Proof.Machine.execSbcIndx b2 s
  | .sbcZp b2 => Sys2Proof.Machine.execSbcZp b2 s
  | .sbcImm m => Sys2Proof.Machine.execSbcImm m s
  | .sbcAbs addr => Sys2Proof.Machine.execSbcAbs addr s
  | .sbcIndy b2 => Sys2Proof.Machine.execSbcIndy b2 s
  | .sbcZpx b2 => Sys2Proof.Machine.execSbcZpx b2 s
  | .sbcAbsy addr => Sys2Proof.Machine.execSbcAbsy addr s
  | .sbcAbsx addr => Sys2Proof.Machine.execSbcAbsx addr s
  | .cmpIndx b2 => Sys2Proof.Machine.execCmpIndx b2 s
  | .cmpZp b2 => Sys2Proof.Machine.execCmpZp b2 s
  | .cmpImm m => Sys2Proof.Machine.execCmpImm m s
  | .cmpAbs addr => Sys2Proof.Machine.execCmpAbs addr s
  | .cmpIndy b2 => Sys2Proof.Machine.execCmpIndy b2 s
  | .cmpZpx b2 => Sys2Proof.Machine.execCmpZpx b2 s
  | .cmpAbsy addr => Sys2Proof.Machine.execCmpAbsy addr s
  | .cmpAbsx addr => Sys2Proof.Machine.execCmpAbsx addr s
  | .cpxImm m => Sys2Proof.Machine.execCpxImm m s
  | .cpxZp b2 => Sys2Proof.Machine.execCpxZp b2 s
  | .cpxAbs addr => Sys2Proof.Machine.execCpxAbs addr s
  | .cpyImm m => Sys2Proof.Machine.execCpyImm m s
  | .cpyZp b2 => Sys2Proof.Machine.execCpyZp b2 s
  | .cpyAbs addr => Sys2Proof.Machine.execCpyAbs addr s
  | .incZp b2 => Sys2Proof.Machine.execIncZp b2 s
  | .incAbs addr => Sys2Proof.Machine.execIncAbs addr s
  | .incZpx b2 => Sys2Proof.Machine.execIncZpx b2 s
  | .incAbsx addr => Sys2Proof.Machine.execIncAbsx addr s
  | .decZp b2 => Sys2Proof.Machine.execDecZp b2 s
  | .decAbs addr => Sys2Proof.Machine.execDecAbs addr s
  | .decZpx b2 => Sys2Proof.Machine.execDecZpx b2 s
  | .decAbsx addr => Sys2Proof.Machine.execDecAbsx addr s
  | .inx => Sys2Proof.Machine.execInx s
  | .iny => Sys2Proof.Machine.execIny s
  | .dex => Sys2Proof.Machine.execDex s
  | .dey => Sys2Proof.Machine.execDey s
  -- Logic, bit test, shifts and rotates (R150 to R157).
  | .andIndx b2 => Sys2Proof.Machine.execAndIndx b2 s
  | .andZp b2 => Sys2Proof.Machine.execAndZp b2 s
  | .andImm m => Sys2Proof.Machine.execAndImm m s
  | .andAbs addr => Sys2Proof.Machine.execAndAbs addr s
  | .andIndy b2 => Sys2Proof.Machine.execAndIndy b2 s
  | .andZpx b2 => Sys2Proof.Machine.execAndZpx b2 s
  | .andAbsy addr => Sys2Proof.Machine.execAndAbsy addr s
  | .andAbsx addr => Sys2Proof.Machine.execAndAbsx addr s
  | .oraIndx b2 => Sys2Proof.Machine.execOraIndx b2 s
  | .oraZp b2 => Sys2Proof.Machine.execOraZp b2 s
  | .oraImm m => Sys2Proof.Machine.execOraImm m s
  | .oraAbs addr => Sys2Proof.Machine.execOraAbs addr s
  | .oraIndy b2 => Sys2Proof.Machine.execOraIndy b2 s
  | .oraZpx b2 => Sys2Proof.Machine.execOraZpx b2 s
  | .oraAbsy addr => Sys2Proof.Machine.execOraAbsy addr s
  | .oraAbsx addr => Sys2Proof.Machine.execOraAbsx addr s
  | .eorIndx b2 => Sys2Proof.Machine.execEorIndx b2 s
  | .eorZp b2 => Sys2Proof.Machine.execEorZp b2 s
  | .eorImm m => Sys2Proof.Machine.execEorImm m s
  | .eorAbs addr => Sys2Proof.Machine.execEorAbs addr s
  | .eorIndy b2 => Sys2Proof.Machine.execEorIndy b2 s
  | .eorZpx b2 => Sys2Proof.Machine.execEorZpx b2 s
  | .eorAbsy addr => Sys2Proof.Machine.execEorAbsy addr s
  | .eorAbsx addr => Sys2Proof.Machine.execEorAbsx addr s
  | .bitZp b2 => Sys2Proof.Machine.execBitZp b2 s
  | .bitAbs addr => Sys2Proof.Machine.execBitAbs addr s
  | .aslZp b2 => Sys2Proof.Machine.execAslZp b2 s
  | .aslAcc => Sys2Proof.Machine.execAslAcc s
  | .aslAbs addr => Sys2Proof.Machine.execAslAbs addr s
  | .aslZpx b2 => Sys2Proof.Machine.execAslZpx b2 s
  | .aslAbsx addr => Sys2Proof.Machine.execAslAbsx addr s
  | .lsrZp b2 => Sys2Proof.Machine.execLsrZp b2 s
  | .lsrAcc => Sys2Proof.Machine.execLsrAcc s
  | .lsrAbs addr => Sys2Proof.Machine.execLsrAbs addr s
  | .lsrZpx b2 => Sys2Proof.Machine.execLsrZpx b2 s
  | .lsrAbsx addr => Sys2Proof.Machine.execLsrAbsx addr s
  | .rolZp b2 => Sys2Proof.Machine.execRolZp b2 s
  | .rolAcc => Sys2Proof.Machine.execRolAcc s
  | .rolAbs addr => Sys2Proof.Machine.execRolAbs addr s
  | .rolZpx b2 => Sys2Proof.Machine.execRolZpx b2 s
  | .rolAbsx addr => Sys2Proof.Machine.execRolAbsx addr s
  | .rorZp b2 => Sys2Proof.Machine.execRorZp b2 s
  | .rorAcc => Sys2Proof.Machine.execRorAcc s
  | .rorAbs addr => Sys2Proof.Machine.execRorAbs addr s
  | .rorZpx b2 => Sys2Proof.Machine.execRorZpx b2 s
  | .rorAbsx addr => Sys2Proof.Machine.execRorAbsx addr s
  -- Jumps, subroutine call and return, conditional branches (R170 to R182).
  | .jmpAbs target => Sys2Proof.Machine.execJmpAbs target s
  | .jmpInd ptr => Sys2Proof.Machine.execJmpInd ptr s
  | .jsr target => Sys2Proof.Machine.execJsr target s
  | .rts => Sys2Proof.Machine.execRts s
  | .bpl b2 => Sys2Proof.Machine.execBpl b2 s
  | .bmi b2 => Sys2Proof.Machine.execBmi b2 s
  | .bvc b2 => Sys2Proof.Machine.execBvc b2 s
  | .bvs b2 => Sys2Proof.Machine.execBvs b2 s
  | .bcc b2 => Sys2Proof.Machine.execBcc b2 s
  | .bcs b2 => Sys2Proof.Machine.execBcs b2 s
  | .bne b2 => Sys2Proof.Machine.execBne b2 s
  | .beq b2 => Sys2Proof.Machine.execBeq b2 s
  -- Stack instructions (R190 to R193).
  | .pha => Sys2Proof.Machine.execPha s
  | .pla => Sys2Proof.Machine.execPla s
  | .php => Sys2Proof.Machine.execPhp s
  | .plp => Sys2Proof.Machine.execPlp s
  -- Flag instructions, NOP, BRK and RTI (R200 to R209).
  | .clc => Sys2Proof.Machine.execClc s
  | .sec => Sys2Proof.Machine.execSec s
  | .cli => Sys2Proof.Machine.execCli s
  | .sei => Sys2Proof.Machine.execSei s
  | .cld => Sys2Proof.Machine.execCld s
  | .sed => Sys2Proof.Machine.execSed s
  | .clv => Sys2Proof.Machine.execClv s
  | .nop => Sys2Proof.Machine.execNop s
  | .brk => Sys2Proof.Machine.execBrk s
  | .rti => Sys2Proof.Machine.execRti s
  -- Undefined opcode bytes (R220).
  | .undefined op => Sys2Proof.Machine.execUndefined op s

end Sys2Proof.Machine
end

