-- ==== Sys2Proof/WellFormed.lean ====
section
/-! DEFINITION. Which instruction terms stand for instructions, and which parameter values R1 and R221 allow. -/

namespace Sys2Proof

/-- The first half of the undefined opcode bytes of R76. -/
def undefinedOpcodesLow : List Byte :=
  [
    0x02, 0x03, 0x04, 0x07, 0x0B, 0x0C, 0x0F, 0x12, 0x13, 0x14, 0x17, 0x1A,
    0x1B, 0x1C, 0x1F, 0x22, 0x23, 0x27, 0x2B, 0x2F, 0x32, 0x33, 0x34, 0x37,
    0x3A, 0x3B, 0x3C, 0x3F, 0x42, 0x43, 0x44, 0x47, 0x4B, 0x4F, 0x52, 0x53,
    0x54, 0x57, 0x5A, 0x5B, 0x5C, 0x5F, 0x62, 0x63, 0x64, 0x67, 0x6B, 0x6F,
    0x72, 0x73, 0x74, 0x77, 0x7A, 0x7B, 0x7C, 0x7F, 0x80, 0x82, 0x83, 0x87 ]

/-- The second half of the undefined opcode bytes of R76. -/
def undefinedOpcodesHigh : List Byte :=
  [
    0x89, 0x8B, 0x8F, 0x92, 0x93, 0x97, 0x9B, 0x9C, 0x9E, 0x9F, 0xA3, 0xA7,
    0xAB, 0xAF, 0xB2, 0xB3, 0xB7, 0xBB, 0xBF, 0xC2, 0xC3, 0xC7, 0xCB, 0xCF,
    0xD2, 0xD3, 0xD4, 0xD7, 0xDA, 0xDB, 0xDC, 0xDF, 0xE2, 0xE3, 0xE7, 0xEB,
    0xEF, 0xF2, 0xF3, 0xF4, 0xF7, 0xFA, 0xFB, 0xFC, 0xFF ]

/-- The 105 undefined opcode bytes (R76). -/
def undefinedOpcodes : List Byte := undefinedOpcodesLow ++ undefinedOpcodesHigh

/-- A documented constructor admits every operand value (R73, R222); `undefined` carries a byte of R76. -/
def Instr.wellFormed : Instr → Bool
  | .ldaIndx _ => true
  | .ldaZp _ => true
  | .ldaImm _ => true
  | .ldaAbs _ => true
  | .ldaIndy _ => true
  | .ldaZpx _ => true
  | .ldaAbsy _ => true
  | .ldaAbsx _ => true
  | .ldxImm _ => true
  | .ldxZp _ => true
  | .ldxAbs _ => true
  | .ldxZpy _ => true
  | .ldxAbsy _ => true
  | .ldyImm _ => true
  | .ldyZp _ => true
  | .ldyAbs _ => true
  | .ldyZpx _ => true
  | .ldyAbsx _ => true
  | .staIndx _ => true
  | .staZp _ => true
  | .staAbs _ => true
  | .staIndy _ => true
  | .staZpx _ => true
  | .staAbsy _ => true
  | .staAbsx _ => true
  | .stxZp _ => true
  | .stxAbs _ => true
  | .stxZpy _ => true
  | .styZp _ => true
  | .styAbs _ => true
  | .styZpx _ => true
  | .tax => true
  | .tay => true
  | .txa => true
  | .tya => true
  | .tsx => true
  | .txs => true
  | .adcIndx _ => true
  | .adcZp _ => true
  | .adcImm _ => true
  | .adcAbs _ => true
  | .adcIndy _ => true
  | .adcZpx _ => true
  | .adcAbsy _ => true
  | .adcAbsx _ => true
  | .sbcIndx _ => true
  | .sbcZp _ => true
  | .sbcImm _ => true
  | .sbcAbs _ => true
  | .sbcIndy _ => true
  | .sbcZpx _ => true
  | .sbcAbsy _ => true
  | .sbcAbsx _ => true
  | .cmpIndx _ => true
  | .cmpZp _ => true
  | .cmpImm _ => true
  | .cmpAbs _ => true
  | .cmpIndy _ => true
  | .cmpZpx _ => true
  | .cmpAbsy _ => true
  | .cmpAbsx _ => true
  | .cpxImm _ => true
  | .cpxZp _ => true
  | .cpxAbs _ => true
  | .cpyImm _ => true
  | .cpyZp _ => true
  | .cpyAbs _ => true
  | .incZp _ => true
  | .incAbs _ => true
  | .incZpx _ => true
  | .incAbsx _ => true
  | .decZp _ => true
  | .decAbs _ => true
  | .decZpx _ => true
  | .decAbsx _ => true
  | .inx => true
  | .iny => true
  | .dex => true
  | .dey => true
  | .andIndx _ => true
  | .andZp _ => true
  | .andImm _ => true
  | .andAbs _ => true
  | .andIndy _ => true
  | .andZpx _ => true
  | .andAbsy _ => true
  | .andAbsx _ => true
  | .oraIndx _ => true
  | .oraZp _ => true
  | .oraImm _ => true
  | .oraAbs _ => true
  | .oraIndy _ => true
  | .oraZpx _ => true
  | .oraAbsy _ => true
  | .oraAbsx _ => true
  | .eorIndx _ => true
  | .eorZp _ => true
  | .eorImm _ => true
  | .eorAbs _ => true
  | .eorIndy _ => true
  | .eorZpx _ => true
  | .eorAbsy _ => true
  | .eorAbsx _ => true
  | .bitZp _ => true
  | .bitAbs _ => true
  | .aslZp _ => true
  | .aslAcc => true
  | .aslAbs _ => true
  | .aslZpx _ => true
  | .aslAbsx _ => true
  | .lsrZp _ => true
  | .lsrAcc => true
  | .lsrAbs _ => true
  | .lsrZpx _ => true
  | .lsrAbsx _ => true
  | .rolZp _ => true
  | .rolAcc => true
  | .rolAbs _ => true
  | .rolZpx _ => true
  | .rolAbsx _ => true
  | .rorZp _ => true
  | .rorAcc => true
  | .rorAbs _ => true
  | .rorZpx _ => true
  | .rorAbsx _ => true
  | .jmpAbs _ => true
  | .jmpInd _ => true
  | .jsr _ => true
  | .rts => true
  | .bpl _ => true
  | .bmi _ => true
  | .bvc _ => true
  | .bvs _ => true
  | .bcc _ => true
  | .bcs _ => true
  | .bne _ => true
  | .beq _ => true
  | .pha => true
  | .pla => true
  | .php => true
  | .plp => true
  | .clc => true
  | .sec => true
  | .cli => true
  | .sei => true
  | .cld => true
  | .sed => true
  | .clv => true
  | .nop => true
  | .brk => true
  | .rti => true
  | .undefined op => undefinedOpcodes.contains op

/-- R1: 1 ≤ W ≤ 16. R221: a supplied table is total on the 105 undefined bytes. -/
def Config.wellFormed (c : Config) : Bool :=
  decide (1 ≤ c.addrWidth ∧ c.addrWidth ≤ 16) &&
    match c.undefPolicy with
    | .refuse => true
    | .table rows => undefinedOpcodes.all (fun op => (rows.lookup op).isSome)

end Sys2Proof
end

