-- ==== Sys2Proof/Decode.lean ====
section
/-! DEFINITION. The decode table (R70, R75), the decoder of a list of bytes, and the encoder written from the same table. -/

namespace Sys2Proof

/-- A row of the decode table: the format (R71) and the instruction its operand bytes make. -/
inductive Entry where
  /-- One byte. -/
  | f1 (i : Instr)
  /-- Two bytes. -/
  | f2 (mk : Byte → Instr)
  /-- Three bytes. -/
  | f3 (mk : Addr → Instr)
  /-- Three bytes, the third of which the instruction itself fetches, after its pushes: JSR alone (R172; log 8). -/
  | f3Late (mk : Addr → Instr)

/-- The decode table (R75): "a fixed 256-entry table" indexed by the opcode byte. A byte the table does not define is the
verdict `undefined` (R72). DESIGN CHOICE (log 9): the spec gives such a byte no format and no length (R76); the decoder and the
encoder read it as one byte, and the policy's table says how many operand bytes its execution skips (R220). -/
def opcodeEntry (op : Byte) : Entry :=
  match op.toNat with
  | 0x00 => .f1 .brk
  | 0x01 => .f2 .oraIndx
  | 0x05 => .f2 .oraZp
  | 0x06 => .f2 .aslZp
  | 0x08 => .f1 .php
  | 0x09 => .f2 .oraImm
  | 0x0A => .f1 .aslAcc
  | 0x0D => .f3 .oraAbs
  | 0x0E => .f3 .aslAbs
  | 0x10 => .f2 .bpl
  | 0x11 => .f2 .oraIndy
  | 0x15 => .f2 .oraZpx
  | 0x16 => .f2 .aslZpx
  | 0x18 => .f1 .clc
  | 0x19 => .f3 .oraAbsy
  | 0x1D => .f3 .oraAbsx
  | 0x1E => .f3 .aslAbsx
  | 0x20 => .f3Late .jsr
  | 0x21 => .f2 .andIndx
  | 0x24 => .f2 .bitZp
  | 0x25 => .f2 .andZp
  | 0x26 => .f2 .rolZp
  | 0x28 => .f1 .plp
  | 0x29 => .f2 .andImm
  | 0x2A => .f1 .rolAcc
  | 0x2C => .f3 .bitAbs
  | 0x2D => .f3 .andAbs
  | 0x2E => .f3 .rolAbs
  | 0x30 => .f2 .bmi
  | 0x31 => .f2 .andIndy
  | 0x35 => .f2 .andZpx
  | 0x36 => .f2 .rolZpx
  | 0x38 => .f1 .sec
  | 0x39 => .f3 .andAbsy
  | 0x3D => .f3 .andAbsx
  | 0x3E => .f3 .rolAbsx
  | 0x40 => .f1 .rti
  | 0x41 => .f2 .eorIndx
  | 0x45 => .f2 .eorZp
  | 0x46 => .f2 .lsrZp
  | 0x48 => .f1 .pha
  | 0x49 => .f2 .eorImm
  | 0x4A => .f1 .lsrAcc
  | 0x4C => .f3 .jmpAbs
  | 0x4D => .f3 .eorAbs
  | 0x4E => .f3 .lsrAbs
  | 0x50 => .f2 .bvc
  | 0x51 => .f2 .eorIndy
  | 0x55 => .f2 .eorZpx
  | 0x56 => .f2 .lsrZpx
  | 0x58 => .f1 .cli
  | 0x59 => .f3 .eorAbsy
  | 0x5D => .f3 .eorAbsx
  | 0x5E => .f3 .lsrAbsx
  | 0x60 => .f1 .rts
  | 0x61 => .f2 .adcIndx
  | 0x65 => .f2 .adcZp
  | 0x66 => .f2 .rorZp
  | 0x68 => .f1 .pla
  | 0x69 => .f2 .adcImm
  | 0x6A => .f1 .rorAcc
  | 0x6C => .f3 .jmpInd
  | 0x6D => .f3 .adcAbs
  | 0x6E => .f3 .rorAbs
  | 0x70 => .f2 .bvs
  | 0x71 => .f2 .adcIndy
  | 0x75 => .f2 .adcZpx
  | 0x76 => .f2 .rorZpx
  | 0x78 => .f1 .sei
  | 0x79 => .f3 .adcAbsy
  | 0x7D => .f3 .adcAbsx
  | 0x7E => .f3 .rorAbsx
  | 0x81 => .f2 .staIndx
  | 0x84 => .f2 .styZp
  | 0x85 => .f2 .staZp
  | 0x86 => .f2 .stxZp
  | 0x88 => .f1 .dey
  | 0x8A => .f1 .txa
  | 0x8C => .f3 .styAbs
  | 0x8D => .f3 .staAbs
  | 0x8E => .f3 .stxAbs
  | 0x90 => .f2 .bcc
  | 0x91 => .f2 .staIndy
  | 0x94 => .f2 .styZpx
  | 0x95 => .f2 .staZpx
  | 0x96 => .f2 .stxZpy
  | 0x98 => .f1 .tya
  | 0x99 => .f3 .staAbsy
  | 0x9A => .f1 .txs
  | 0x9D => .f3 .staAbsx
  | 0xA0 => .f2 .ldyImm
  | 0xA1 => .f2 .ldaIndx
  | 0xA2 => .f2 .ldxImm
  | 0xA4 => .f2 .ldyZp
  | 0xA5 => .f2 .ldaZp
  | 0xA6 => .f2 .ldxZp
  | 0xA8 => .f1 .tay
  | 0xA9 => .f2 .ldaImm
  | 0xAA => .f1 .tax
  | 0xAC => .f3 .ldyAbs
  | 0xAD => .f3 .ldaAbs
  | 0xAE => .f3 .ldxAbs
  | 0xB0 => .f2 .bcs
  | 0xB1 => .f2 .ldaIndy
  | 0xB4 => .f2 .ldyZpx
  | 0xB5 => .f2 .ldaZpx
  | 0xB6 => .f2 .ldxZpy
  | 0xB8 => .f1 .clv
  | 0xB9 => .f3 .ldaAbsy
  | 0xBA => .f1 .tsx
  | 0xBC => .f3 .ldyAbsx
  | 0xBD => .f3 .ldaAbsx
  | 0xBE => .f3 .ldxAbsy
  | 0xC0 => .f2 .cpyImm
  | 0xC1 => .f2 .cmpIndx
  | 0xC4 => .f2 .cpyZp
  | 0xC5 => .f2 .cmpZp
  | 0xC6 => .f2 .decZp
  | 0xC8 => .f1 .iny
  | 0xC9 => .f2 .cmpImm
  | 0xCA => .f1 .dex
  | 0xCC => .f3 .cpyAbs
  | 0xCD => .f3 .cmpAbs
  | 0xCE => .f3 .decAbs
  | 0xD0 => .f2 .bne
  | 0xD1 => .f2 .cmpIndy
  | 0xD5 => .f2 .cmpZpx
  | 0xD6 => .f2 .decZpx
  | 0xD8 => .f1 .cld
  | 0xD9 => .f3 .cmpAbsy
  | 0xDD => .f3 .cmpAbsx
  | 0xDE => .f3 .decAbsx
  | 0xE0 => .f2 .cpxImm
  | 0xE1 => .f2 .sbcIndx
  | 0xE4 => .f2 .cpxZp
  | 0xE5 => .f2 .sbcZp
  | 0xE6 => .f2 .incZp
  | 0xE8 => .f1 .inx
  | 0xE9 => .f2 .sbcImm
  | 0xEA => .f1 .nop
  | 0xEC => .f3 .cpxAbs
  | 0xED => .f3 .sbcAbs
  | 0xEE => .f3 .incAbs
  | 0xF0 => .f2 .beq
  | 0xF1 => .f2 .sbcIndy
  | 0xF5 => .f2 .sbcZpx
  | 0xF6 => .f2 .incZpx
  | 0xF8 => .f1 .sed
  | 0xF9 => .f3 .sbcAbsy
  | 0xFD => .f3 .sbcAbsx
  | 0xFE => .f3 .incAbsx
  | _ => .f1 (.undefined op)

/-- Why bytes are no instruction. -/
inductive DecodeError where
  /-- The bytes end before the instruction does. -/
  | truncated
  deriving DecidableEq, Repr

/-- What the decoder answers: the instruction and the bytes after it, or why there is none. -/
inductive Decoded where
  | ok (i : Instr) (rest : List Byte)
  | error (e : DecodeError)
  deriving DecidableEq, Repr

/-- The decoder: total on any bytes; low address byte first (R51, R71, R73). -/
def decode : List Byte → Decoded
  | [] => .error .truncated
  | op :: bs =>
    match opcodeEntry op, bs with
    | .f1 i, bs => .ok i bs
    | .f2 mk, b2 :: bs => .ok (mk b2) bs
    | .f3 mk, b2 :: b3 :: bs => .ok (mk (Machine.wordOf b3 b2)) bs
    | .f3Late mk, b2 :: b3 :: bs => .ok (mk (Machine.wordOf b3 b2)) bs
    | _, _ => .error .truncated

/-- The two operand bytes of a 16-bit operand, low byte first (R51). -/
def addrBytes (a : Addr) : List Byte := [Machine.loByte a, Machine.hiByte a]

/-- The encoder: the bytes of an instruction, lowest address first (R71, R75). -/
def encode : Instr → List Byte
  | .ldaIndx b2 => [0xA1, b2]
  | .ldaZp b2 => [0xA5, b2]
  | .ldaImm m => [0xA9, m]
  | .ldaAbs addr => 0xAD :: addrBytes addr
  | .ldaIndy b2 => [0xB1, b2]
  | .ldaZpx b2 => [0xB5, b2]
  | .ldaAbsy addr => 0xB9 :: addrBytes addr
  | .ldaAbsx addr => 0xBD :: addrBytes addr
  | .ldxImm m => [0xA2, m]
  | .ldxZp b2 => [0xA6, b2]
  | .ldxAbs addr => 0xAE :: addrBytes addr
  | .ldxZpy b2 => [0xB6, b2]
  | .ldxAbsy addr => 0xBE :: addrBytes addr
  | .ldyImm m => [0xA0, m]
  | .ldyZp b2 => [0xA4, b2]
  | .ldyAbs addr => 0xAC :: addrBytes addr
  | .ldyZpx b2 => [0xB4, b2]
  | .ldyAbsx addr => 0xBC :: addrBytes addr
  | .staIndx b2 => [0x81, b2]
  | .staZp b2 => [0x85, b2]
  | .staAbs addr => 0x8D :: addrBytes addr
  | .staIndy b2 => [0x91, b2]
  | .staZpx b2 => [0x95, b2]
  | .staAbsy addr => 0x99 :: addrBytes addr
  | .staAbsx addr => 0x9D :: addrBytes addr
  | .stxZp b2 => [0x86, b2]
  | .stxAbs addr => 0x8E :: addrBytes addr
  | .stxZpy b2 => [0x96, b2]
  | .styZp b2 => [0x84, b2]
  | .styAbs addr => 0x8C :: addrBytes addr
  | .styZpx b2 => [0x94, b2]
  | .tax => [0xAA]
  | .tay => [0xA8]
  | .txa => [0x8A]
  | .tya => [0x98]
  | .tsx => [0xBA]
  | .txs => [0x9A]
  | .adcIndx b2 => [0x61, b2]
  | .adcZp b2 => [0x65, b2]
  | .adcImm m => [0x69, m]
  | .adcAbs addr => 0x6D :: addrBytes addr
  | .adcIndy b2 => [0x71, b2]
  | .adcZpx b2 => [0x75, b2]
  | .adcAbsy addr => 0x79 :: addrBytes addr
  | .adcAbsx addr => 0x7D :: addrBytes addr
  | .sbcIndx b2 => [0xE1, b2]
  | .sbcZp b2 => [0xE5, b2]
  | .sbcImm m => [0xE9, m]
  | .sbcAbs addr => 0xED :: addrBytes addr
  | .sbcIndy b2 => [0xF1, b2]
  | .sbcZpx b2 => [0xF5, b2]
  | .sbcAbsy addr => 0xF9 :: addrBytes addr
  | .sbcAbsx addr => 0xFD :: addrBytes addr
  | .cmpIndx b2 => [0xC1, b2]
  | .cmpZp b2 => [0xC5, b2]
  | .cmpImm m => [0xC9, m]
  | .cmpAbs addr => 0xCD :: addrBytes addr
  | .cmpIndy b2 => [0xD1, b2]
  | .cmpZpx b2 => [0xD5, b2]
  | .cmpAbsy addr => 0xD9 :: addrBytes addr
  | .cmpAbsx addr => 0xDD :: addrBytes addr
  | .cpxImm m => [0xE0, m]
  | .cpxZp b2 => [0xE4, b2]
  | .cpxAbs addr => 0xEC :: addrBytes addr
  | .cpyImm m => [0xC0, m]
  | .cpyZp b2 => [0xC4, b2]
  | .cpyAbs addr => 0xCC :: addrBytes addr
  | .incZp b2 => [0xE6, b2]
  | .incAbs addr => 0xEE :: addrBytes addr
  | .incZpx b2 => [0xF6, b2]
  | .incAbsx addr => 0xFE :: addrBytes addr
  | .decZp b2 => [0xC6, b2]
  | .decAbs addr => 0xCE :: addrBytes addr
  | .decZpx b2 => [0xD6, b2]
  | .decAbsx addr => 0xDE :: addrBytes addr
  | .inx => [0xE8]
  | .iny => [0xC8]
  | .dex => [0xCA]
  | .dey => [0x88]
  | .andIndx b2 => [0x21, b2]
  | .andZp b2 => [0x25, b2]
  | .andImm m => [0x29, m]
  | .andAbs addr => 0x2D :: addrBytes addr
  | .andIndy b2 => [0x31, b2]
  | .andZpx b2 => [0x35, b2]
  | .andAbsy addr => 0x39 :: addrBytes addr
  | .andAbsx addr => 0x3D :: addrBytes addr
  | .oraIndx b2 => [0x01, b2]
  | .oraZp b2 => [0x05, b2]
  | .oraImm m => [0x09, m]
  | .oraAbs addr => 0x0D :: addrBytes addr
  | .oraIndy b2 => [0x11, b2]
  | .oraZpx b2 => [0x15, b2]
  | .oraAbsy addr => 0x19 :: addrBytes addr
  | .oraAbsx addr => 0x1D :: addrBytes addr
  | .eorIndx b2 => [0x41, b2]
  | .eorZp b2 => [0x45, b2]
  | .eorImm m => [0x49, m]
  | .eorAbs addr => 0x4D :: addrBytes addr
  | .eorIndy b2 => [0x51, b2]
  | .eorZpx b2 => [0x55, b2]
  | .eorAbsy addr => 0x59 :: addrBytes addr
  | .eorAbsx addr => 0x5D :: addrBytes addr
  | .bitZp b2 => [0x24, b2]
  | .bitAbs addr => 0x2C :: addrBytes addr
  | .aslZp b2 => [0x06, b2]
  | .aslAcc => [0x0A]
  | .aslAbs addr => 0x0E :: addrBytes addr
  | .aslZpx b2 => [0x16, b2]
  | .aslAbsx addr => 0x1E :: addrBytes addr
  | .lsrZp b2 => [0x46, b2]
  | .lsrAcc => [0x4A]
  | .lsrAbs addr => 0x4E :: addrBytes addr
  | .lsrZpx b2 => [0x56, b2]
  | .lsrAbsx addr => 0x5E :: addrBytes addr
  | .rolZp b2 => [0x26, b2]
  | .rolAcc => [0x2A]
  | .rolAbs addr => 0x2E :: addrBytes addr
  | .rolZpx b2 => [0x36, b2]
  | .rolAbsx addr => 0x3E :: addrBytes addr
  | .rorZp b2 => [0x66, b2]
  | .rorAcc => [0x6A]
  | .rorAbs addr => 0x6E :: addrBytes addr
  | .rorZpx b2 => [0x76, b2]
  | .rorAbsx addr => 0x7E :: addrBytes addr
  | .jmpAbs target => 0x4C :: addrBytes target
  | .jmpInd ptr => 0x6C :: addrBytes ptr
  | .jsr target => 0x20 :: addrBytes target
  | .rts => [0x60]
  | .bpl b2 => [0x10, b2]
  | .bmi b2 => [0x30, b2]
  | .bvc b2 => [0x50, b2]
  | .bvs b2 => [0x70, b2]
  | .bcc b2 => [0x90, b2]
  | .bcs b2 => [0xB0, b2]
  | .bne b2 => [0xD0, b2]
  | .beq b2 => [0xF0, b2]
  | .pha => [0x48]
  | .pla => [0x68]
  | .php => [0x08]
  | .plp => [0x28]
  | .clc => [0x18]
  | .sec => [0x38]
  | .cli => [0x58]
  | .sei => [0x78]
  | .cld => [0xD8]
  | .sed => [0xF8]
  | .clv => [0xB8]
  | .nop => [0xEA]
  | .brk => [0x00]
  | .rti => [0x40]
  | .undefined op => [op]

/-- The three bytes of the word `w`, byte 1 in bits 7..0; a byte above the first `nbits` bits is 0. -/
def tableBytes (nbits w : Nat) : List Byte :=
  (List.range 3).map (fun k => if 8 * k < nbits then BitVec.ofNat 8 (w >>> (8 * k)) else 0)

/-- The instruction the decoder reads from a word of spec/opcode_table.json's numbering. -/
def decodeTableWord (nbits w : Nat) : Option Instr :=
  match decode (tableBytes nbits w) with
  | .ok i _ => some i
  | .error _ => none

end Sys2Proof
end

