-- ==== Sys2Proof/Machine/Fetch.lean ====
section
/-! DEFINITION. Fetching an instruction (the first line of R105 and the operand fetches of R93 to R102), and placing one where
the next step fetches. -/

namespace Sys2Proof.Machine

/-- Fetch the opcode byte, look it up, fetch the operand bytes of its format, `PC` advancing by one for each byte (R16).
For JSR the third byte is only looked at, with no bus access and no advance: its meaning fetches it after the pushes
(R172; log 8). -/
def fetchInstr (s : State) : Instr × State :=
  let o := fetchOpcode s
  match opcodeEntry o.1 with
  | .f1 i => (i, o.2)
  | .f2 mk =>
    let b2 := fetchOperand o.2
    (mk b2.1, b2.2)
  | .f3 mk =>
    let b2 := fetchOperand o.2
    let b3 := fetchOperand b2.2
    (mk (wordOf b3.1 b2.1), b3.2)
  | .f3Late mk =>
    let b2 := fetchOperand o.2
    (mk (wordOf (busObserve .direct b2.2.pc b2.2).1 b2.1), b2.2)

/-- A new core step records its bus accesses from an empty list (log 12). -/
def State.beginStep (s : State) : State := { s with bus := [] }

/-- Put a byte of an instruction at a bus address: in the program space, and in the opcode view where there is one; a device
cell becomes RAM. It stands for the platform's loading of a program (R275). -/
def State.placeByte (s : State) (addr : Addr) (v : Byte) : State :=
  let b := s.mask addr
  { s with
    plat :=
      { s.plat with
        mem := s.mem.write b.toNat v
        opcodeView := if s.cfg.hasOpcodeView then s.opcodeView.write b.toNat v else s.opcodeView
        regions := if s.kindAt b = .device then ⟨b.toNat, 1, .ram⟩ :: s.plat.regions else s.plat.regions } }

/-- Put bytes at consecutive addresses (mod 2^W). -/
def State.placeBytes (s : State) (addr : Addr) : List Byte → State
  | [] => s
  | v :: vs => (s.placeByte addr v).placeBytes (addr + 1#16) vs

end Sys2Proof.Machine
end

