-- ==== Sys2Proof/Machine/Interrupts.lean ====
section
/-! DEFINITION. The interrupt check (R234, R237), the three input lines and the NMI latch (R21, R22, R233), the reset service
(R270, R271), and the sequencer states of R247. -/

namespace Sys2Proof.Machine

/-- The core step of phase `AtCheck` (R234): NMI before IRQ (R237), IRQ only when `I = 0`; then `AtFetch`. An entry reports
7 cycles, a check that takes nothing 0 (R285). -/
def interruptCheck (s : State) : State :=
  if s.nmiPending then
    { raiseInterrupt .nmi { s with nmiPending := false } with phase := .atFetch, cyc := 0, reported := 7 }
  else if s.irqLine && !s.p.i then
    { raiseInterrupt .irq s with phase := .atFetch, cyc := 0, reported := 7 }
  else
    { s with phase := .atFetch, cyc := 0, reported := 0 }

/-! ## The lines -/

/-- `assert(IRQ)`: level only, no latch (R22). -/
def State.assertIrq (s : State) : State := { s with irqLine := true }

/-- `clear(IRQ)`. -/
def State.clearIrq (s : State) : State := { s with irqLine := false }

/-- `assert(NMI)`: a clear-to-asserted change sets the latch; a held line does not set it again (R22). -/
def State.assertNmi (s : State) : State :=
  { s with nmiLine := true, nmiPending := s.nmiPending || !s.nmiLine }

/-- `clear(NMI)`: the latch stays (R22). -/
def State.clearNmi (s : State) : State := { s with nmiLine := false }

/-- The flags after a reset service: `I` set, the others the bits of a free value (R271). -/
def resetFlags (v : Byte) : Flags := { unpackP v with i := true }

/-- The reset service (R271): `A`, `X`, `Y`, `SP` and the flags but `I` are free values drawn now (log 4); `PC` comes from
the reset vector; nothing is pushed and memory is not written. It reports 7 cycles. -/
def resetService (s : State) : State :=
  let s0 := { s with bus := [] }
  let lo := readResetVector 0xFFFC#16 s0
  let hi := readResetVector 0xFFFD#16 lo.2
  let s1 := hi.2.jump (wordOf hi.1 lo.1)
  let k := s1.draws
  { s1 with
    a := Config.freeByte k
    x := Config.freeByte (k + 1)
    y := Config.freeByte (k + 2)
    sp := Config.freeByte (k + 3)
    p := resetFlags (Config.freeByte (k + 4))
    draws := k + 5
    nmiPending := false
    phase := .atFetch
    cyc := 0
    reported := 7 }

/-- `assert(RESET)` (R270): the service runs as part of a clear-to-asserted change; asserted again, nothing happens. -/
def State.assertReset (s : State) : State :=
  if s.resetLine then s else resetService { s with resetLine := true }

/-- `clear(RESET)` (R270): lifts the hold and changes nothing else. -/
def State.clearReset (s : State) : State := { s with resetLine := false }

/-! ## The document's sequencer states (R247) -/

/-- `NMIPending`. -/
def State.isNmiPending (s : State) : Bool := s.nmiPending

/-- `IRQPending`: the line is asserted, masked or not. -/
def State.isIrqPending (s : State) : Bool := s.irqLine

/-- `Idle`. -/
def State.isIdle (s : State) : Bool := !s.resetLine && !s.nmiPending && !(s.irqLine && !s.p.i)

end Sys2Proof.Machine
end

