-- ==== Sys2Proof/Machine/Step.lean ====
section
/-! DEFINITION. The step relation of the core as one function (R276), and the placing of an instruction where the next step
fetches it. -/

namespace Sys2Proof.Machine

/-- One core step (R276): none while `reset_line` is asserted (R270); else by `phase` the instruction step (R105) or the
interrupt check (R234). -/
def step (s : State) : Host.Outcome State Fault Refusal :=
  if s.resetLine then .fault .heldInReset
  else
    match s.phase with
    | .atFetch => exec (fetchInstr s.beginStep).1 (fetchInstr s.beginStep).2
    | .atCheck => .next (interruptCheck s.beginStep)

/-- `s` with the instruction of a table word stored at `PC`, the core at `AtFetch` and out of reset, so that the very next
step fetches and runs it (log 14). -/
def State.withFetchWord (s : State) (nbits w : Nat) : State :=
  { s.placeBytes s.pc (tableBytes nbits w) with phase := .atFetch, resetLine := false }

end Sys2Proof.Machine
end

