-- ==== Sys2Proof/Machine/Platform.lean ====
section
/-! DEFINITION. What the platform and the host may do between two core steps (R21, R276, R279, R280): the lines, memory that
other bus masters change, register and flag sets, save and restore, reads without side effects. -/

namespace Sys2Proof.Machine

/-- The six flags by name, for the host's set and get (R279). -/
inductive FlagName where
  | n | v | d | i | z | c
  deriving DecidableEq, Repr

/-- Get a flag. -/
def Flags.get (p : Flags) : FlagName → Bool
  | .n => p.n
  | .v => p.v
  | .d => p.d
  | .i => p.i
  | .z => p.z
  | .c => p.c

/-- Set a flag. -/
def Flags.set (p : Flags) (b : Bool) : FlagName → Flags
  | .n => { p with n := b }
  | .v => { p with v := b }
  | .d => { p with d := b }
  | .i => { p with i := b }
  | .z => { p with z := b }
  | .c => { p with c := b }

/-- The complete state of the core (R10, R280), without the bus it is bound to. -/
structure Saved where
  a : Byte
  x : Byte
  y : Byte
  sp : Byte
  p : Flags
  pc : Addr
  irqLine : Bool
  nmiLine : Bool
  resetLine : Bool
  nmiPending : Bool
  phase : Phase
  cyc : Nat
  deriving DecidableEq, Repr

/-- Save the complete state (R280). -/
def State.save (s : State) : Saved :=
  { a := s.a, x := s.x, y := s.y, sp := s.sp, p := s.p, pc := s.pc
    irqLine := s.irqLine, nmiLine := s.nmiLine, resetLine := s.resetLine, nmiPending := s.nmiPending
    phase := s.phase, cyc := s.cyc }

/-- Restore a saved state into a core bound to its own bus (R280). -/
def State.restore (s : State) (r : Saved) : State :=
  { s with
    a := r.a, x := r.x, y := r.y, sp := r.sp, p := r.p, pc := s.mask r.pc
    irqLine := r.irqLine, nmiLine := r.nmiLine, resetLine := r.resetLine, nmiPending := r.nmiPending
    phase := r.phase, cyc := r.cyc }

/-- `P` read as a whole (R18): bits 5 and 4 are 1. -/
def State.statusByte (s : State) : Byte := packP true s.p

/-- `DebugRead` through `read_direct` (R50): the byte, the state unchanged; none where the platform has no such path (R2). -/
def State.debugRead (s : State) (addr : Addr) : Option Byte :=
  if s.cfg.hasDirectRead then some (busObserve .direct addr s).1 else none

/-- `DebugRead` through `read_decrypted` (R50): the byte of the opcode view, the state unchanged; none where there is no such
view (R2). -/
def State.debugReadDecrypted (s : State) (addr : Addr) : Option Byte :=
  if s.cfg.hasOpcodeView then some (busObserve .opcode addr s).1 else none

/-- An action of the platform or the host between two core steps. -/
inductive Event where
  | assertIrq
  | clearIrq
  | assertNmi
  | clearNmi
  | assertReset
  | clearReset
  /-- Another bus master or a device changes a cell of the program space or of the opcode view, or what the addresses are
  (R276). -/
  | platform (c : PlatformChange)
  /-- Activity behind the bus that changes the state of the devices (R276). -/
  | device (devices : Nat)
  | setA (v : Byte)
  | setX (v : Byte)
  | setY (v : Byte)
  | setSp (v : Byte)
  | setPc (v : Addr)
  | setFlag (f : FlagName) (b : Bool)
  /-- Set the packed `P`: bits 5 and 4 are forced (R18). -/
  | setP (v : Byte)
  | restore (r : Saved)
  deriving DecidableEq, Repr

/-- The effect of an event (R21, R22, R270, R276, R279, R280). -/
def applyEvent (e : Event) (s : State) : State :=
  match e with
  | .assertIrq => s.assertIrq
  | .clearIrq => s.clearIrq
  | .assertNmi => s.assertNmi
  | .clearNmi => s.clearNmi
  | .assertReset => s.assertReset
  | .clearReset => s.clearReset
  | .platform c => { s with plat := s.plat.change s.cfg.addrWidth c }
  | .device n => { s with plat := { s.plat with devices := n } }
  | .setA v => { s with a := v }
  | .setX v => { s with x := v }
  | .setY v => { s with y := v }
  | .setSp v => { s with sp := v }
  | .setPc v => s.jump v
  | .setFlag f b => { s with p := s.p.set b f }
  | .setP v => { s with p := unpackP v }
  | .restore r => s.restore r

end Sys2Proof.Machine
end

