-- ==== Sys2Proof/Machine/Run.lean ====
section
/-! DEFINITION. Runs: core steps in a row, the tick entry point `Run(budget)` (R277), and a run to an end that a claim gives
(R278). Each is a relation, which is the spec's meaning, and a function that evaluates it with a bound on its steps. -/

namespace Sys2Proof.Machine

/-! ## Core steps in a row -/

/-- `CoreSteps n s c t`: `n` core steps lead from `s` to `t`, and the cycle counts they report sum to `c`. -/
inductive CoreSteps : Nat → State → Nat → State → Prop where
  | zero (s : State) : CoreSteps 0 s 0 s
  | succ {n c : Nat} {s t u : State} (first : step s = .next t) (rest : CoreSteps n t c u) :
      CoreSteps (n + 1) s (t.reported + c) u

/-- What a run answers: the cycles consumed and the state it ends in, the refusal it met, or that its bound on steps was
reached before its end. -/
inductive Ran where
  | done (consumed : Nat) (s : State)
  | refused (consumed : Nat) (r : Refusal)
  | unfinished (consumed : Nat) (s : State)
  deriving Repr

/-! ## Run(budget) -/

/-- The loop of R277 from `consumed` cycles on: it ends when the budget is consumed or no core step is enabled, which is
while the core is held in reset (R276). -/
inductive RunsFor (budget : Nat) : Nat → State → Nat → State → Prop where
  | consumed {c : Nat} {s : State} (h : budget ≤ c) : RunsFor budget c s c s
  | held {c : Nat} {s : State} (h : step s = .fault .heldInReset) : RunsFor budget c s c s
  | more {c c' : Nat} {s t u : State} (below : c < budget) (first : step s = .next t)
      (rest : RunsFor budget (c + t.reported) t c' u) : RunsFor budget c s c' u

/-- The loop of R277 with at most `fuel` steps. -/
def runLoop : Nat → Nat → Nat → State → Ran
  | fuel, budget, consumed, s =>
    if budget ≤ consumed then .done consumed s
    else
      match fuel with
      | 0 => .unfinished consumed s
      | fuel + 1 =>
        match step s with
        | .next t => runLoop fuel budget (consumed + t.reported) t
        | .fault _ => .done consumed s
        | .refused r => .refused consumed r

/-- `Run(budget)` (R277), with at most `fuel` steps. Where every instruction reports at least one cycle, `2 * budget` steps
suffice; a table row of no cycles can take any number (log 15). -/
def runFor (fuel budget : Nat) (s : State) : Ran := runLoop fuel budget 0 s

/-- `Run(budget)` where every instruction reports at least one cycle (log 15). -/
def runBudget (budget : Nat) (s : State) : Ran := runFor (2 * budget) budget s

/-! ## A run to an end that a claim gives -/

/-- One transition of the whole system (R276): a core step, or an event of the platform or the host between core steps. -/
inductive Moves : State → State → Prop where
  | core {s t : State} (h : step s = .next t) : Moves s t
  | event (e : Event) (s : State) : Moves s (applyEvent e s)

/-- A run from `s` to `t`. -/
inductive RunsTo : State → State → Prop where
  | refl (s : State) : RunsTo s s
  | tail {s t u : State} (h : RunsTo s t) (m : Moves t u) : RunsTo s u

/-- A run of the whole system to the first state with the end predicate `ends`, which the claim gives (R278). DESIGN CHOICE
(log 23): the predicate is tested at every step boundary, also between an instruction and its interrupt check. -/
inductive RunsUntil (ends : State → Prop) : State → State → Prop where
  | done {s : State} (h : ends s) : RunsUntil ends s s
  | move {s t u : State} (h : ¬ ends s) (m : Moves s t) (rest : RunsUntil ends t u) : RunsUntil ends s u

/-- A run of core steps alone to the first state with the end predicate `ends` (R278), with at most `fuel` steps. A core
held in reset has not ended. DESIGN CHOICE (log 23, log 16): no event of the platform or the host comes between the steps. -/
def runUntil (ends : State → Bool) : Nat → Nat → State → Ran
  | fuel, consumed, s =>
    if ends s then .done consumed s
    else
      match fuel with
      | 0 => .unfinished consumed s
      | fuel + 1 =>
        match step s with
        | .next t => runUntil ends fuel (consumed + t.reported) t
        | .fault _ => .unfinished consumed s
        | .refused r => .refused consumed r

end Sys2Proof.Machine
end

