-- ==== Sys2Proof/Safety.lean ====
section
/-! DEFINITION. The terms claims are stated in: the invariant, what the core sees in memory, the forms of each instruction
class, which instructions write what (R10, R20), the stored addresses, and what accesses do to the platform. -/

namespace Sys2Proof

open Sys2Proof.Machine

/-! ## The invariant -/

/-- What holds at every step boundary: parameters in range (R1, R221), `PC` within W bits (R16), `cyc` zero (R24), both byte
arrays in canonical form and inside the address space (R41). -/
structure StateInv (s : State) : Prop where
  config : s.cfg.wellFormed = true
  pcFits : s.pc.toNat < 2 ^ s.cfg.addrWidth
  cycZero : s.cyc = 0
  memWf : s.mem.wf = true
  memFits : s.mem.below (2 ^ s.cfg.addrWidth) = true
  viewWf : s.opcodeView.wf = true
  viewFits : s.opcodeView.below (2 ^ s.cfg.addrWidth) = true

/-! ## Outcomes -/

/-- The outcome is a next state with the property `Q`. -/
def Answers (o : Result) (Q : State → Prop) : Prop := ∃ t, o = .next t ∧ Q t

/-- Whether an instruction is an undefined opcode byte. -/
def Instr.isUndefined : Instr → Bool
  | .undefined _ => true
  | _ => false

/-! ## Memory as the core sees it -/

/-- The byte of the program space at a 16-bit address. -/
def byteAt (s : State) (addr : Addr) : Byte := s.mem.read (s.mask addr).toNat

/-- The bus cell of a 16-bit address is RAM. -/
abbrev IsRam (s : State) (addr : Addr) : Prop := s.kindAt (s.mask addr) = .ram

/-- The bus cell of a 16-bit address is RAM or ROM: a read returns what the program space holds and has no side effect. -/
abbrev IsPlain (s : State) (addr : Addr) : Prop := s.kindAt (s.mask addr) ≠ .device

/-- The opcode byte at a 16-bit address (R47): of the opcode view where there is one, else of the program space. -/
def opcodeByteAt (s : State) (addr : Addr) : Byte :=
  if s.cfg.hasOpcodeView then s.opcodeView.read (s.mask addr).toNat else byteAt s addr

/-- The three bytes at `PC`, the first as an opcode. -/
def codeBytes (s : State) : List Byte :=
  [opcodeByteAt s s.pc, byteAt s (s.nextPc 1), byteAt s (s.nextPc 2)]

/-- How many of an instruction's bytes are fetched before its meaning starts: all, but for JSR, whose third byte is fetched
by its meaning (R172). -/
def fetchedBytes (i : Instr) : Nat :=
  match i with
  | .jsr _ => 2
  | i => (encode i).length

/-- The bus accesses of fetching the first `n` bytes at `PC`. -/
def fetchAccesses (s : State) (n : Nat) : List BusAccess :=
  [BusAccess.read .opcode (s.mask s.pc) (opcodeByteAt s s.pc), .read .operand (s.nextPc 1) (byteAt s (s.nextPc 1)),
    .read .operand (s.nextPc 2) (byteAt s (s.nextPc 2))].take n

/-- The state in which the meaning of `i` starts, `i` having been fetched from plain cells: the recorded accesses are those
of the fetch, and `PC` is past the bytes fetched. -/
def afterFetch (i : Instr) (s : State) : State :=
  { s with bus := fetchAccesses s (fetchedBytes i), pc := s.nextPc (fetchedBytes i) }

/-! ## Forms -/

/-- A memory form of an instruction: the term, its opcode byte, its addressing mode, its base cycle count (R75). -/
structure Form where
  instr : Instr
  opcode : Byte
  mode : State → Resolved
  cycles : Nat

/-- The byte a read-class or read-modify-write form reads at its effective address (R90). -/
def Form.operand (f : Form) (s : State) : Byte := (memRead (f.mode s).ea (f.mode s).st).1

/-- The effective address of a form. -/
def Form.ea (f : Form) (s : State) : Addr := (f.mode s).ea

/-- The state after the pointer reads of a form's mode. -/
def Form.resolvedState (f : Form) (s : State) : State := (f.mode s).st

/-- The form has its opcode byte, and in the state `s` it completes: it reports its base count, plus one when `penalized`
and a page is crossed (R103), the interrupt check is next (R105), and `Q` holds of the next state. -/
def Form.Completes (f : Form) (s : State) (penalized : Bool) (Q : State → Prop) : Prop :=
  (encode f.instr).head? = some f.opcode ∧
    Answers (exec f.instr s) fun t =>
      t.reported = f.cycles + (if penalized && (f.mode s).crossed then 1 else 0) ∧ t.phase = .atCheck ∧ Q t

/-! ## Flags -/

/-- `q` is `p` with `N` and `Z` set from `v` (R19), the other four flags as they were. -/
def SetsNZ (v : Byte) (p q : Flags) : Prop :=
  (q.z = true ↔ v = 0) ∧ q.n = bit v 7 ∧ q.c = p.c ∧ q.v = p.v ∧ q.d = p.d ∧ q.i = p.i

/-- `q` is `p` with `N` and `Z` set from `v` and `C` set to `c`. -/
def SetsNZC (v : Byte) (c : Bool) (p q : Flags) : Prop :=
  (q.z = true ↔ v = 0) ∧ q.n = bit v 7 ∧ q.c = c ∧ q.v = p.v ∧ q.d = p.d ∧ q.i = p.i

/-! ## Decimal digits -/

/-- Both nibbles of a byte are decimal digits. -/
abbrev ValidBcd (b : Byte) : Prop := b.toNat / 16 ≤ 9 ∧ b.toNat % 16 ≤ 9

/-- The number two decimal digits stand for. -/
def bcdValue (b : Byte) : Nat := 10 * (b.toNat / 16) + b.toNat % 16

/-- The memory forms of LDA (R110, R75). -/
def ldaForms (b : Byte) (w : Addr) : List Form :=
  [⟨.ldaIndx b, 0xA1#8, modeIndx b, 6⟩, ⟨.ldaZp b, 0xA5#8, modeZp b, 3⟩, ⟨.ldaAbs w, 0xAD#8, modeAbs w, 4⟩,
   ⟨.ldaIndy b, 0xB1#8, modeIndy b, 5⟩, ⟨.ldaZpx b, 0xB5#8, modeZpx b, 4⟩,
   ⟨.ldaAbsy w, 0xB9#8, modeAbsy w, 4⟩, ⟨.ldaAbsx w, 0xBD#8, modeAbsx w, 4⟩]

/-- The memory forms of LDX (R111, R75). -/
def ldxForms (b : Byte) (w : Addr) : List Form :=
  [⟨.ldxZp b, 0xA6#8, modeZp b, 3⟩, ⟨.ldxAbs w, 0xAE#8, modeAbs w, 4⟩, ⟨.ldxZpy b, 0xB6#8, modeZpy b, 4⟩,
   ⟨.ldxAbsy w, 0xBE#8, modeAbsy w, 4⟩]

/-- The memory forms of LDY (R112, R75). -/
def ldyForms (b : Byte) (w : Addr) : List Form :=
  [⟨.ldyZp b, 0xA4#8, modeZp b, 3⟩, ⟨.ldyAbs w, 0xAC#8, modeAbs w, 4⟩, ⟨.ldyZpx b, 0xB4#8, modeZpx b, 4⟩,
   ⟨.ldyAbsx w, 0xBC#8, modeAbsx w, 4⟩]

/-- The memory forms of ADC (R130, R75). -/
def adcForms (b : Byte) (w : Addr) : List Form :=
  [⟨.adcIndx b, 0x61#8, modeIndx b, 6⟩, ⟨.adcZp b, 0x65#8, modeZp b, 3⟩, ⟨.adcAbs w, 0x6D#8, modeAbs w, 4⟩,
   ⟨.adcIndy b, 0x71#8, modeIndy b, 5⟩, ⟨.adcZpx b, 0x75#8, modeZpx b, 4⟩,
   ⟨.adcAbsy w, 0x79#8, modeAbsy w, 4⟩, ⟨.adcAbsx w, 0x7D#8, modeAbsx w, 4⟩]

/-- The memory forms of SBC (R131, R75). -/
def sbcForms (b : Byte) (w : Addr) : List Form :=
  [⟨.sbcIndx b, 0xE1#8, modeIndx b, 6⟩, ⟨.sbcZp b, 0xE5#8, modeZp b, 3⟩, ⟨.sbcAbs w, 0xED#8, modeAbs w, 4⟩,
   ⟨.sbcIndy b, 0xF1#8, modeIndy b, 5⟩, ⟨.sbcZpx b, 0xF5#8, modeZpx b, 4⟩,
   ⟨.sbcAbsy w, 0xF9#8, modeAbsy w, 4⟩, ⟨.sbcAbsx w, 0xFD#8, modeAbsx w, 4⟩]

/-- The memory forms of CMP (R132, R75). -/
def cmpForms (b : Byte) (w : Addr) : List Form :=
  [⟨.cmpIndx b, 0xC1#8, modeIndx b, 6⟩, ⟨.cmpZp b, 0xC5#8, modeZp b, 3⟩, ⟨.cmpAbs w, 0xCD#8, modeAbs w, 4⟩,
   ⟨.cmpIndy b, 0xD1#8, modeIndy b, 5⟩, ⟨.cmpZpx b, 0xD5#8, modeZpx b, 4⟩,
   ⟨.cmpAbsy w, 0xD9#8, modeAbsy w, 4⟩, ⟨.cmpAbsx w, 0xDD#8, modeAbsx w, 4⟩]

/-- The memory forms of CPX (R133, R75). -/
def cpxForms (b : Byte) (w : Addr) : List Form :=
  [⟨.cpxZp b, 0xE4#8, modeZp b, 3⟩, ⟨.cpxAbs w, 0xEC#8, modeAbs w, 4⟩]

/-- The memory forms of CPY (R134, R75). -/
def cpyForms (b : Byte) (w : Addr) : List Form :=
  [⟨.cpyZp b, 0xC4#8, modeZp b, 3⟩, ⟨.cpyAbs w, 0xCC#8, modeAbs w, 4⟩]

/-- The memory forms of AND (R150, R75). -/
def andForms (b : Byte) (w : Addr) : List Form :=
  [⟨.andIndx b, 0x21#8, modeIndx b, 6⟩, ⟨.andZp b, 0x25#8, modeZp b, 3⟩, ⟨.andAbs w, 0x2D#8, modeAbs w, 4⟩,
   ⟨.andIndy b, 0x31#8, modeIndy b, 5⟩, ⟨.andZpx b, 0x35#8, modeZpx b, 4⟩,
   ⟨.andAbsy w, 0x39#8, modeAbsy w, 4⟩, ⟨.andAbsx w, 0x3D#8, modeAbsx w, 4⟩]

/-- The memory forms of ORA (R151, R75). -/
def oraForms (b : Byte) (w : Addr) : List Form :=
  [⟨.oraIndx b, 0x01#8, modeIndx b, 6⟩, ⟨.oraZp b, 0x05#8, modeZp b, 3⟩, ⟨.oraAbs w, 0x0D#8, modeAbs w, 4⟩,
   ⟨.oraIndy b, 0x11#8, modeIndy b, 5⟩, ⟨.oraZpx b, 0x15#8, modeZpx b, 4⟩,
   ⟨.oraAbsy w, 0x19#8, modeAbsy w, 4⟩, ⟨.oraAbsx w, 0x1D#8, modeAbsx w, 4⟩]

/-- The memory forms of EOR (R152, R75). -/
def eorForms (b : Byte) (w : Addr) : List Form :=
  [⟨.eorIndx b, 0x41#8, modeIndx b, 6⟩, ⟨.eorZp b, 0x45#8, modeZp b, 3⟩, ⟨.eorAbs w, 0x4D#8, modeAbs w, 4⟩,
   ⟨.eorIndy b, 0x51#8, modeIndy b, 5⟩, ⟨.eorZpx b, 0x55#8, modeZpx b, 4⟩,
   ⟨.eorAbsy w, 0x59#8, modeAbsy w, 4⟩, ⟨.eorAbsx w, 0x5D#8, modeAbsx w, 4⟩]

/-- The memory forms of BIT (R153, R75). -/
def bitForms (b : Byte) (w : Addr) : List Form :=
  [⟨.bitZp b, 0x24#8, modeZp b, 3⟩, ⟨.bitAbs w, 0x2C#8, modeAbs w, 4⟩]

/-- Every read-class memory form (R90). -/
def readForms (b : Byte) (w : Addr) : List Form :=
  ldaForms b w ++ ldxForms b w ++ ldyForms b w ++ adcForms b w ++ sbcForms b w ++ cmpForms b w ++ cpxForms b w ++
    cpyForms b w ++ andForms b w ++ oraForms b w ++ eorForms b w ++ bitForms b w

/-- The memory forms of STA (R113, R75). -/
def staForms (b : Byte) (w : Addr) : List Form :=
  [⟨.staIndx b, 0x81#8, modeIndx b, 6⟩, ⟨.staZp b, 0x85#8, modeZp b, 3⟩, ⟨.staAbs w, 0x8D#8, modeAbs w, 4⟩,
   ⟨.staIndy b, 0x91#8, modeIndy b, 6⟩, ⟨.staZpx b, 0x95#8, modeZpx b, 4⟩,
   ⟨.staAbsy w, 0x99#8, modeAbsy w, 5⟩, ⟨.staAbsx w, 0x9D#8, modeAbsx w, 5⟩]

/-- The memory forms of STX (R114, R75). -/
def stxForms (b : Byte) (w : Addr) : List Form :=
  [⟨.stxZp b, 0x86#8, modeZp b, 3⟩, ⟨.stxAbs w, 0x8E#8, modeAbs w, 4⟩, ⟨.stxZpy b, 0x96#8, modeZpy b, 4⟩]

/-- The memory forms of STY (R115, R75). -/
def styForms (b : Byte) (w : Addr) : List Form :=
  [⟨.styZp b, 0x84#8, modeZp b, 3⟩, ⟨.styAbs w, 0x8C#8, modeAbs w, 4⟩, ⟨.styZpx b, 0x94#8, modeZpx b, 4⟩]

/-- Every write-class form (R90). -/
def writeForms (b : Byte) (w : Addr) : List Form := staForms b w ++ stxForms b w ++ styForms b w

/-- The memory forms of INC (R135, R75). -/
def incForms (b : Byte) (w : Addr) : List Form :=
  [⟨.incZp b, 0xE6#8, modeZp b, 5⟩, ⟨.incAbs w, 0xEE#8, modeAbs w, 6⟩, ⟨.incZpx b, 0xF6#8, modeZpx b, 6⟩,
   ⟨.incAbsx w, 0xFE#8, modeAbsx w, 7⟩]

/-- The memory forms of DEC (R136, R75). -/
def decForms (b : Byte) (w : Addr) : List Form :=
  [⟨.decZp b, 0xC6#8, modeZp b, 5⟩, ⟨.decAbs w, 0xCE#8, modeAbs w, 6⟩, ⟨.decZpx b, 0xD6#8, modeZpx b, 6⟩,
   ⟨.decAbsx w, 0xDE#8, modeAbsx w, 7⟩]

/-- The memory forms of ASL (R154, R75). -/
def aslForms (b : Byte) (w : Addr) : List Form :=
  [⟨.aslZp b, 0x06#8, modeZp b, 5⟩, ⟨.aslAbs w, 0x0E#8, modeAbs w, 6⟩, ⟨.aslZpx b, 0x16#8, modeZpx b, 6⟩,
   ⟨.aslAbsx w, 0x1E#8, modeAbsx w, 7⟩]

/-- The memory forms of LSR (R155, R75). -/
def lsrForms (b : Byte) (w : Addr) : List Form :=
  [⟨.lsrZp b, 0x46#8, modeZp b, 5⟩, ⟨.lsrAbs w, 0x4E#8, modeAbs w, 6⟩, ⟨.lsrZpx b, 0x56#8, modeZpx b, 6⟩,
   ⟨.lsrAbsx w, 0x5E#8, modeAbsx w, 7⟩]

/-- The memory forms of ROL (R156, R75). -/
def rolForms (b : Byte) (w : Addr) : List Form :=
  [⟨.rolZp b, 0x26#8, modeZp b, 5⟩, ⟨.rolAbs w, 0x2E#8, modeAbs w, 6⟩, ⟨.rolZpx b, 0x36#8, modeZpx b, 6⟩,
   ⟨.rolAbsx w, 0x3E#8, modeAbsx w, 7⟩]

/-- The memory forms of ROR (R157, R75). -/
def rorForms (b : Byte) (w : Addr) : List Form :=
  [⟨.rorZp b, 0x66#8, modeZp b, 5⟩, ⟨.rorAbs w, 0x6E#8, modeAbs w, 6⟩, ⟨.rorZpx b, 0x76#8, modeZpx b, 6⟩,
   ⟨.rorAbsx w, 0x7E#8, modeAbsx w, 7⟩]

/-- Every read-modify-write form (R90). -/
def rmwForms (b : Byte) (w : Addr) : List Form :=
  incForms b w ++ decForms b w ++ aslForms b w ++ lsrForms b w ++ rolForms b w ++ rorForms b w

/-- The forms that make no access beyond the fetch of their bytes: immediate (R93), accumulator (R92), and the implied
instructions on registers and flags (R91). -/
def noAccessForms (m : Byte) : List Instr :=
  [.ldaImm m, .ldxImm m, .ldyImm m, .adcImm m, .sbcImm m, .cmpImm m, .cpxImm m, .cpyImm m, .andImm m, .oraImm m, .eorImm m] ++
    [.aslAcc, .lsrAcc, .rolAcc, .rorAcc, .tax, .tay, .txa, .tya, .tsx, .txs, .inx, .iny, .dex, .dey] ++
    [.clc, .sec, .cli, .sei, .cld, .sed, .clv, .nop]

/-! ## What an instruction writes (R10, R20) -/

/-- What an instruction writes: the registers of R10 (`pc`: beyond the fetch of its own bytes, R183) and the flags of R20
(`nz`: N and Z). -/
structure Writes where
  a : Bool := false
  x : Bool := false
  y : Bool := false
  sp : Bool := false
  pc : Bool := false
  nz : Bool := false
  v : Bool := false
  d : Bool := false
  i : Bool := false
  c : Bool := false
  deriving DecidableEq, Repr

/-- The rows "written by" of R10 and the marks of R20, instruction by instruction; an undefined byte writes none (R220). -/
def writes : Instr → Writes
  | .ldaIndx _ | .ldaZp _ | .ldaImm _ | .ldaAbs _ | .ldaIndy _ | .ldaZpx _ | .ldaAbsy _ | .ldaAbsx _ | .txa
  | .tya | .andIndx _ | .andZp _ | .andImm _ | .andAbs _ | .andIndy _ | .andZpx _ | .andAbsy _ | .andAbsx _
  | .oraIndx _ | .oraZp _ | .oraImm _ | .oraAbs _ | .oraIndy _ | .oraZpx _ | .oraAbsy _ | .oraAbsx _ | .eorIndx _
  | .eorZp _ | .eorImm _ | .eorAbs _ | .eorIndy _ | .eorZpx _ | .eorAbsy _ | .eorAbsx _ => { a := true, nz := true }
  | .ldxImm _ | .ldxZp _ | .ldxAbs _ | .ldxZpy _ | .ldxAbsy _ | .tax | .tsx | .inx | .dex => { x := true, nz := true }
  | .ldyImm _ | .ldyZp _ | .ldyAbs _ | .ldyZpx _ | .ldyAbsx _ | .tay | .iny | .dey => { y := true, nz := true }
  | .staIndx _ | .staZp _ | .staAbs _ | .staIndy _ | .staZpx _ | .staAbsy _ | .staAbsx _ | .stxZp _ | .stxAbs _
  | .stxZpy _ | .styZp _ | .styAbs _ | .styZpx _ | .nop | .undefined _ => {}
  | .txs | .pha | .php => { sp := true }
  | .adcIndx _ | .adcZp _ | .adcImm _ | .adcAbs _ | .adcIndy _ | .adcZpx _ | .adcAbsy _ | .adcAbsx _ | .sbcIndx _
  | .sbcZp _ | .sbcImm _ | .sbcAbs _ | .sbcIndy _ | .sbcZpx _ | .sbcAbsy _ | .sbcAbsx _ => { a := true, nz := true, v := true, c := true }
  | .cmpIndx _ | .cmpZp _ | .cmpImm _ | .cmpAbs _ | .cmpIndy _ | .cmpZpx _ | .cmpAbsy _ | .cmpAbsx _ | .cpxImm _
  | .cpxZp _ | .cpxAbs _ | .cpyImm _ | .cpyZp _ | .cpyAbs _ | .aslZp _ | .aslAbs _ | .aslZpx _ | .aslAbsx _
  | .lsrZp _ | .lsrAbs _ | .lsrZpx _ | .lsrAbsx _ | .rolZp _ | .rolAbs _ | .rolZpx _ | .rolAbsx _ | .rorZp _
  | .rorAbs _ | .rorZpx _ | .rorAbsx _ => { nz := true, c := true }
  | .incZp _ | .incAbs _ | .incZpx _ | .incAbsx _ | .decZp _ | .decAbs _ | .decZpx _ | .decAbsx _ => { nz := true }
  | .bitZp _ | .bitAbs _ => { nz := true, v := true }
  | .aslAcc | .lsrAcc | .rolAcc | .rorAcc => { a := true, nz := true, c := true }
  | .jmpAbs _ | .jmpInd _ | .bpl _ | .bmi _ | .bvc _ | .bvs _ | .bcc _ | .bcs _ | .bne _ | .beq _ => { pc := true }
  | .jsr _ | .rts => { sp := true, pc := true }
  | .pla => { a := true, sp := true, nz := true }
  | .plp => { sp := true, nz := true, v := true, d := true, i := true, c := true }
  | .clc | .sec => { c := true }
  | .cli | .sei => { i := true }
  | .cld | .sed => { d := true }
  | .clv => { v := true }
  | .brk => { sp := true, pc := true, i := true }
  | .rti => { sp := true, pc := true, nz := true, v := true, d := true, i := true, c := true }

/-! ## Where instructions store -/

/-- The 16-bit addresses an instruction stores to, in order, computed as its meaning computes them: the effective address of
a store or read-modify-write form, the stack bytes of a push. -/
def storedAddrs (i : Instr) (s : State) : List Addr :=
  match i with
  | .staIndx b2 => [(modeIndx b2 s).ea]
  | .staZp b2 => [(modeZp b2 s).ea]
  | .staAbs addr => [(modeAbs addr s).ea]
  | .staIndy b2 => [(modeIndy b2 s).ea]
  | .staZpx b2 => [(modeZpx b2 s).ea]
  | .staAbsy addr => [(modeAbsy addr s).ea]
  | .staAbsx addr => [(modeAbsx addr s).ea]
  | .stxZp b2 => [(modeZp b2 s).ea]
  | .stxAbs addr => [(modeAbs addr s).ea]
  | .stxZpy b2 => [(modeZpy b2 s).ea]
  | .styZp b2 => [(modeZp b2 s).ea]
  | .styAbs addr => [(modeAbs addr s).ea]
  | .styZpx b2 => [(modeZpx b2 s).ea]
  | .incZp b2 => [(modeZp b2 s).ea]
  | .incAbs addr => [(modeAbs addr s).ea]
  | .incZpx b2 => [(modeZpx b2 s).ea]
  | .incAbsx addr => [(modeAbsx addr s).ea]
  | .decZp b2 => [(modeZp b2 s).ea]
  | .decAbs addr => [(modeAbs addr s).ea]
  | .decZpx b2 => [(modeZpx b2 s).ea]
  | .decAbsx addr => [(modeAbsx addr s).ea]
  | .aslZp b2 => [(modeZp b2 s).ea]
  | .aslAbs addr => [(modeAbs addr s).ea]
  | .aslZpx b2 => [(modeZpx b2 s).ea]
  | .aslAbsx addr => [(modeAbsx addr s).ea]
  | .lsrZp b2 => [(modeZp b2 s).ea]
  | .lsrAbs addr => [(modeAbs addr s).ea]
  | .lsrZpx b2 => [(modeZpx b2 s).ea]
  | .lsrAbsx addr => [(modeAbsx addr s).ea]
  | .rolZp b2 => [(modeZp b2 s).ea]
  | .rolAbs addr => [(modeAbs addr s).ea]
  | .rolZpx b2 => [(modeZpx b2 s).ea]
  | .rolAbsx addr => [(modeAbsx addr s).ea]
  | .rorZp b2 => [(modeZp b2 s).ea]
  | .rorAbs addr => [(modeAbs addr s).ea]
  | .rorZpx b2 => [(modeZpx b2 s).ea]
  | .rorAbsx addr => [(modeAbsx addr s).ea]
  | .pha | .php => [stackAddr s.sp]
  | .jsr _ => [stackAddr s.sp, stackAddr (s.sp - 1#8)]
  | .brk => [stackAddr s.sp, stackAddr (s.sp - 1#8), stackAddr (s.sp - 1#8 - 1#8)]
  | .ldaIndx _ | .ldaZp _ | .ldaImm _ | .ldaAbs _ | .ldaIndy _ | .ldaZpx _ | .ldaAbsy _ | .ldaAbsx _ | .ldxImm _
  | .ldxZp _ | .ldxAbs _ | .ldxZpy _ | .ldxAbsy _ | .ldyImm _ | .ldyZp _ | .ldyAbs _ | .ldyZpx _ | .ldyAbsx _
  | .tax | .tay | .txa | .tya | .tsx | .txs | .adcIndx _ | .adcZp _ | .adcImm _ | .adcAbs _ | .adcIndy _
  | .adcZpx _ | .adcAbsy _ | .adcAbsx _ | .sbcIndx _ | .sbcZp _ | .sbcImm _ | .sbcAbs _ | .sbcIndy _ | .sbcZpx _
  | .sbcAbsy _ | .sbcAbsx _ | .cmpIndx _ | .cmpZp _ | .cmpImm _ | .cmpAbs _ | .cmpIndy _ | .cmpZpx _ | .cmpAbsy _
  | .cmpAbsx _ | .cpxImm _ | .cpxZp _ | .cpxAbs _ | .cpyImm _ | .cpyZp _ | .cpyAbs _ | .inx | .iny | .dex | .dey
  | .andIndx _ | .andZp _ | .andImm _ | .andAbs _ | .andIndy _ | .andZpx _ | .andAbsy _ | .andAbsx _ | .oraIndx _
  | .oraZp _ | .oraImm _ | .oraAbs _ | .oraIndy _ | .oraZpx _ | .oraAbsy _ | .oraAbsx _ | .eorIndx _ | .eorZp _
  | .eorImm _ | .eorAbs _ | .eorIndy _ | .eorZpx _ | .eorAbsy _ | .eorAbsx _ | .bitZp _ | .bitAbs _ | .aslAcc
  | .lsrAcc | .rolAcc | .rorAcc | .jmpAbs _ | .jmpInd _ | .rts | .bpl _ | .bmi _ | .bvc _ | .bvs _ | .bcc _
  | .bcs _ | .bne _ | .beq _ | .pla | .plp | .clc | .sec | .cli | .sei | .cld | .sed | .clv | .nop | .rti
  | .undefined _ => []

/-- Every byte of the program space outside the bus cells of `addrs` reads as before. -/
def MemorySameBut (addrs : List Addr) (s t : State) : Prop :=
  ∀ a : Nat, (∀ b ∈ addrs, (s.mask b).toNat ≠ a) → t.mem.read a = s.mem.read a

/-- The input lines, the NMI latch and the parameters are as before. -/
def InputsSame (s t : State) : Prop :=
  t.irqLine = s.irqLine ∧ t.nmiLine = s.nmiLine ∧ t.resetLine = s.resetLine ∧ t.nmiPending = s.nmiPending ∧
    t.cfg = s.cfg

/-! ## Accesses and the platform -/

/-- The accesses `acc`, made one at a time in order, take the platform from `M` to `N` (R43, R56): each read returns what the
platform answers then, each access leaves the platform as `bus_read` and `bus_write` say. -/
inductive Accesses (c : Config) : Platform → List BusAccess → Platform → Prop where
  | nil (M : Platform) : Accesses c M [] M
  | read (k : ReadKind) (a : Addr) {M N : Platform} {l : List BusAccess} (rest : Accesses c (M.afterRead c k a) l N) :
      Accesses c M (.read k a (M.value c k a) :: l) N
  | write (a : Addr) (v : Byte) {M N : Platform} {l : List BusAccess} (rest : Accesses c (M.afterWrite c a v) l N) :
      Accesses c M (.write a v :: l) N

/-- The masked address of an access. -/
def Machine.BusAccess.addr : BusAccess → Addr
  | .read _ a _ => a
  | .write a _ => a

/-- The accesses that `t` records beyond those of `s`. -/
def newAccesses (s t : State) : List BusAccess := t.bus.drop s.bus.length

/-- Every access that `t` records beyond those of `s` is of a RAM or ROM cell. -/
abbrev OnlyPlain (s t : State) : Prop := ∀ b ∈ newAccesses s t, s.kindAt b.addr ≠ .device

/-- What the last write of the list to the masked address `a` wrote. -/
def lastWrite (a : Addr) : List BusAccess → Option Byte
  | [] => none
  | .read _ _ _ :: l => lastWrite a l
  | .write b v :: l => (lastWrite a l).or (if b = a then some v else none)

/-! ## Stops -/

/-- A state is stuck for good reason only: its step is a next state, or the reset line holds it (R270), or it fetched an
undefined opcode that the parameters give no meaning (R220). -/
def SafeState (s : State) : Prop :=
  match step s with
  | .next _ => True
  | .fault .heldInReset => s.resetLine = true
  | .refused (.undefinedOpcode op) => undefinedOpcodes.contains op = true
  | .refused (.undefinedOperation op _) => undefinedOpcodes.contains op = true
  | .refused _ => False

end Sys2Proof
end

