-- ==== Sys2Proof/Certificates/Slice0/Obligations.lean ====
section
/-! DEFINITION. The statements for the provers, from the numbered rules of spec/. An instruction's statement is about `exec`
in the state in which its meaning starts: its operand bytes fetched and `PC` past them (R105; for JSR `PC` at its third
byte, R172); `StepRunsDecodedInstruction` carries it to `step`. A device cell may do anything to the platform when it is accessed
(R43), so a statement about what memory holds afterwards is about accesses of plain cells. -/

open Sys2Proof Sys2Proof.Machine

/-! ## Encoding -/

/-- R70, R71, R73, R75: the decoder reads from an instruction's bytes that instruction and leaves the bytes after it. For an
undefined opcode byte this is the model's choice (log 9): it is taken as one byte, where the spec gives it no format (R76) and
no length (R221). -/
def Obligations.DecodeOfEncodeIsIdentity : Prop :=
  ∀ (i : Instr) (rest : List Byte), i.wellFormed = true → decode (encode i ++ rest) = .ok i rest

/-- R70 to R73: each list of bytes has at most one reading, a well-formed instruction whose encoding it starts with. That the
reading of an undefined opcode byte is that one byte, and the list goes on after it, is the model's choice (log 9): the spec
gives it no format (R76) and no length (R221). -/
def Obligations.EncodeOfDecodeIsIdentity : Prop :=
  ∀ (bs : List Byte) (i : Instr) (rest : List Byte),
    decode bs = .ok i rest → i.wellFormed = true ∧ encode i ++ rest = bs

/-- R72, R76: with two bytes after it every opcode byte decodes, and it decodes as undefined exactly when it is one of the
105 bytes of R76. -/
def Obligations.UndefinedBytesAreTheListed : Prop :=
  undefinedOpcodes.length = 105 ∧
    ∀ op b2 b3 : Byte,
      (∃ i rest, decode [op, b2, b3] = .ok i rest) ∧
        ((∃ o rest, decode [op, b2, b3] = .ok (.undefined o) rest) ↔ op ∈ undefinedOpcodes)

/-- R72, R75, R76: words of each family written out from the opcode map decode to the instructions they stand for, and a byte
of R76 to the verdict `undefined`. That nothing is left after that one byte is the model's choice (log 9). -/
def Obligations.FamilyWordsDecode : Prop :=
  decode [0xA1#8, 0x20#8] = .ok (.ldaIndx 0x20) [] ∧
  decode [0x96#8, 0xF0#8] = .ok (.stxZpy 0xF0) [] ∧
  decode [0x9A#8] = .ok .txs [] ∧
  decode [0x7D#8, 0xFF#8, 0x06#8] = .ok (.adcAbsx 0x06FF) [] ∧
  decode [0xF1#8, 0x86#8] = .ok (.sbcIndy 0x86) [] ∧
  decode [0x2C#8, 0x00#8, 0x02#8] = .ok (.bitAbs 0x0200) [] ∧
  decode [0x6A#8] = .ok .rorAcc [] ∧
  decode [0x6C#8, 0xFF#8, 0x02#8] = .ok (.jmpInd 0x02FF) [] ∧
  decode [0x20#8, 0x23#8, 0xC1#8] = .ok (.jsr 0xC123) [] ∧
  decode [0xF0#8, 0x80#8] = .ok (.beq 0x80) [] ∧
  decode [0x28#8] = .ok .plp [] ∧
  decode [0x00#8] = .ok .brk [] ∧
  decode [0x02#8] = .ok (.undefined 0x02) []

/-! ## The step relation -/

/-- R105: at an instruction step whose bytes lie in plain cells and decode to `i`, `step` is `exec` of `i` in the state in
which the fetch has recorded its accesses and moved `PC` past the bytes it fetched (for JSR two of the three). -/
def Obligations.StepRunsDecodedInstruction : Prop :=
  ∀ (s : State) (i : Instr) (rest : List Byte),
    s.phase = .atFetch → s.resetLine = false →
    IsPlain s s.pc → IsPlain s (s.nextPc 1) → IsPlain s (s.nextPc 2) →
    decode (codeBytes s) = .ok i rest →
    step s = exec i (afterFetch i s)

/-- R270, R276: the core has no step exactly while the reset line is asserted. -/
def Obligations.HeldInResetHasNoStep : Prop :=
  ∀ s : State, (step s = .fault .heldInReset) ↔ s.resetLine = true

/-- R220, R230, R276: from every state the step is a next state, but for a core held in reset and for an undefined opcode
byte to which the parameters give no meaning. -/
def Obligations.EveryStateIsSafe : Prop := ∀ s : State, SafeState s

/-- R61, R230: a documented instruction completes in every state; nothing it does can fault. -/
def Obligations.DocumentedInstructionsComplete : Prop :=
  ∀ (i : Instr) (s : State), i.isUndefined = false →
    Answers (exec i s) fun t => t.phase = .atCheck ∧ t.cyc = 0 ∧ 2 ≤ t.reported ∧ t.reported ≤ 7

/-! ## The invariant -/

/-- R12, R16, R24, R41: every core step keeps the invariant. -/
def Obligations.StepKeepsInvariant : Prop :=
  ∀ s t : State, StateInv s → step s = .next t → StateInv t

/-- R16, R18, R21, R270, R279: every event of the platform or the host but the restore of a state whose pending-cycle
counter is not zero keeps the invariant. -/
def Obligations.EventKeepsInvariant : Prop :=
  ∀ (s : State) (e : Event), StateInv s → (∀ r, e = .restore r → r.cyc = 0) → StateInv (applyEvent e s)

/-- The state after reset meets the invariant. -/
def Obligations.ResetMeetsInvariant : Prop := StateInv State.reset

/-! ## Reset -/

/-- R27: what the spec fixes of the state after reset. -/
def Obligations.ResetStateValues : Prop :=
  State.reset.p.i = true ∧ State.reset.nmiPending = false ∧ State.reset.phase = .atFetch ∧ State.reset.cyc = 0 ∧
    State.reset.pc = State.reset.mask (wordOf (byteAt State.reset 0xFFFD#16) (byteAt State.reset 0xFFFC#16))

/-- R49, R270, R271, R274: asserting a clear reset line performs the service at once: `I` set, the NMI latch cleared, `PC`
loaded from the two vector bytes, read by the path of `RESET_VECTOR_VIEW`, nothing pushed or stored, the platform unchanged,
7 cycles, and the core held; asserting it again does nothing; clearing it changes nothing else. A plain vector cell gives the
byte of the program space to the direct path, of the opcode view to the decrypted path. -/
def Obligations.AssertResetPerformsService : Prop :=
  ∀ s : State,
    (s.resetLine = true → applyEvent .assertReset s = s) ∧
    (s.resetLine = false →
      ∃ t, applyEvent .assertReset s = t ∧ t.resetLine = true ∧ t.p.i = true ∧ t.nmiPending = false ∧
        t.phase = .atFetch ∧ t.cyc = 0 ∧ t.reported = 7 ∧ t.plat = s.plat ∧
        t.irqLine = s.irqLine ∧ t.nmiLine = s.nmiLine ∧ t.cfg = s.cfg ∧
        ∃ (k : ReadKind) (lo hi : Byte),
          k = (match s.cfg.resetVectorView with | .direct => .direct | .decrypted => .opcode) ∧
          t.bus = [.read k (s.mask 0xFFFC#16) lo, .read k (s.mask 0xFFFD#16) hi] ∧ t.pc = s.mask (wordOf hi lo) ∧
          (s.cfg.resetVectorView = .direct →
            (IsPlain s 0xFFFC#16 → lo = byteAt s 0xFFFC#16) ∧ (IsPlain s 0xFFFD#16 → hi = byteAt s 0xFFFD#16)) ∧
          (s.cfg.resetVectorView = .decrypted →
            (IsPlain s 0xFFFC#16 → lo = opcodeByteAt s 0xFFFC#16) ∧
              (IsPlain s 0xFFFD#16 → hi = opcodeByteAt s 0xFFFD#16))) ∧
    applyEvent .clearReset s = { s with resetLine := false }

/-! ## Interrupts -/

/-- `t` is `s` after an entry of kind `k` (R236): PC high, PC low and the status byte pushed in this order (the status with
the six flags, bit 5 set, bit 4 set for BRK alone), then the vector read, low byte first, and `PC` loaded from it; `SP`
stepped down by three, `I` set, the other flags, `A`, `X` and `Y` as before. Where the five accesses are of plain cells, the
pushed bytes lie in the stack cells that are RAM, every other byte of memory is as before, and the vector is what memory
then holds. With W = 1 the first and the third pushed byte share a cell. -/
def Entered (k : InterruptKind) (s t : State) : Prop :=
  t.sp = s.sp - 3#8 ∧ t.p = { s.p with i := true } ∧ t.a = s.a ∧ t.x = s.x ∧ t.y = s.y ∧
    vectorAddr k = (if k = .nmi then 0xFFFA#16 else 0xFFFE#16) ∧
    bit (packP (decide (k = .brk)) s.p) 5 = true ∧ bit (packP (decide (k = .brk)) s.p) 4 = decide (k = .brk) ∧
    unpackP (packP (decide (k = .brk)) s.p) = s.p ∧
    (∃ lo hi : Byte,
      t.bus = s.bus ++
        [.write (s.mask (stackAddr s.sp)) (hiByte s.pc), .write (s.mask (stackAddr (s.sp - 1#8))) (loByte s.pc),
          .write (s.mask (stackAddr (s.sp - 2#8))) (packP (decide (k = .brk)) s.p),
          .read .vector (s.mask (vectorAddr k)) lo, .read .vector (s.mask (vectorAddr k + 1#16)) hi] ∧
      t.pc = s.mask (wordOf hi lo) ∧
      (OnlyPlain s t → lo = byteAt t (vectorAddr k) ∧ hi = byteAt t (vectorAddr k + 1#16))) ∧
    (StateInv s → OnlyPlain s t →
      (2 ≤ s.cfg.addrWidth → IsRam s (stackAddr s.sp) → byteAt t (stackAddr s.sp) = hiByte s.pc) ∧
      (IsRam s (stackAddr (s.sp - 1#8)) → byteAt t (stackAddr (s.sp - 1#8)) = loByte s.pc) ∧
      (IsRam s (stackAddr (s.sp - 2#8)) → byteAt t (stackAddr (s.sp - 2#8)) = packP (decide (k = .brk)) s.p) ∧
      MemorySameBut [stackAddr s.sp, stackAddr (s.sp - 1#8), stackAddr (s.sp - 2#8)] s t)

/-- R234, R237: the interrupt check takes a pending NMI whatever `I` is, else an asserted IRQ when `I` is 0, by the entry of
R236 with the current `PC` as the return address, and reports 7 cycles. An NMI entry clears the latch; the lines and the
parameters are as before, and after an IRQ entry the latch too. Else it takes nothing. -/
def Obligations.InterruptCheckFollowsPriority : Prop :=
  ∀ s : State, s.phase = .atCheck → s.resetLine = false →
    (s.nmiPending = true → Answers (step s) fun t =>
      Entered .nmi s.beginStep t ∧ InputsSame { s with nmiPending := false } t ∧ t.phase = .atFetch ∧ t.cyc = 0 ∧
        t.reported = 7) ∧
    (s.nmiPending = false → s.irqLine = true → s.p.i = false → Answers (step s) fun t =>
      Entered .irq s.beginStep t ∧ InputsSame s t ∧ t.phase = .atFetch ∧ t.cyc = 0 ∧ t.reported = 7) ∧
    (s.nmiPending = false → (s.irqLine = false ∨ s.p.i = true) →
      step s = .next { s with bus := [], phase := .atFetch, cyc := 0, reported := 0 })

/-- R236: an entry of each kind; the lines, the latch and the parameters are as before. -/
def Obligations.EntryPushesPcAndStatus : Prop :=
  ∀ (k : InterruptKind) (s : State), Entered k s (raiseInterrupt k s) ∧ InputsSame s (raiseInterrupt k s)

/-- R239: returning from an entry whose accesses were of plain cells, the stack cells RAM, restores `PC`, the flags and `SP`
as they were before it. -/
def Obligations.ReturnUndoesEntry : Prop :=
  ∀ (k : InterruptKind) (s : State), StateInv s → 2 ≤ s.cfg.addrWidth →
    IsRam s (stackAddr s.sp) → IsRam s (stackAddr (s.sp - 1#8)) → IsRam s (stackAddr (s.sp - 2#8)) →
    IsPlain s (vectorAddr k) → IsPlain s (vectorAddr k + 1#16) →
    Answers (exec .rti (raiseInterrupt k s)) fun t =>
      t.pc = s.pc ∧ t.p = s.p ∧ t.sp = s.sp ∧ t.a = s.a ∧ t.x = s.x ∧ t.y = s.y

/-- R22: a clear-to-asserted change of the NMI line sets the latch; holding or clearing the line does not change it; the NMI
entry and the reset service clear it; the IRQ line has no latch. -/
def Obligations.NmiLatchIsEdgeTriggered : Prop :=
  ∀ s : State,
    (s.nmiLine = false → (applyEvent .assertNmi s).nmiPending = true) ∧
    (s.nmiLine = true → (applyEvent .assertNmi s).nmiPending = s.nmiPending) ∧
    (applyEvent .assertNmi s).nmiLine = true ∧
    (applyEvent .clearNmi s).nmiPending = s.nmiPending ∧ (applyEvent .clearNmi s).nmiLine = false ∧
    (s.phase = .atCheck → s.resetLine = false → s.nmiPending = true →
      Answers (step s) fun t => t.nmiPending = false) ∧
    (s.resetLine = false → (applyEvent .assertReset s).nmiPending = false) ∧
    (applyEvent .assertIrq s).nmiPending = s.nmiPending ∧ (applyEvent .assertIrq s).irqLine = true ∧
    (applyEvent .clearIrq s).nmiPending = s.nmiPending ∧ (applyEvent .clearIrq s).irqLine = false

/-- R242: a handler tells BRK from IRQ by bit 4 of the status byte on the stack, a RAM cell. -/
def Obligations.PushedBitFourTellsBrkFromIrq : Prop :=
  ∀ (k : InterruptKind) (s t : State), StateInv s → IsRam s (stackAddr (s.sp - 2#8)) → raiseInterrupt k s = t →
    OnlyPlain s t →
    (bit (byteAt t (stackAddr (t.sp + 1#8))) 4 = true ↔ k = .brk)

/-! ## Memory -/

/-- R40: every access presents the low W bits of its address to the bus and depends on its address through them alone; with
W = 13, 0x3000 is 0x1000. -/
def Obligations.AccessesMaskTheirAddress : Prop :=
  (∀ (s : State) (a : Addr) (v : Byte) (k : ReadKind), ∃ b : Addr, b.toNat = a.toNat % 2 ^ s.cfg.addrWidth ∧
    (busRead k a s).2.bus = s.bus ++ [.read k b (busRead k a s).1] ∧ (busWrite a v s).bus = s.bus ++ [.write b v] ∧
    busRead k a s = busRead k b s ∧ busWrite a v s = busWrite b v s ∧ s.debugRead a = s.debugRead b ∧
    s.debugReadDecrypted a = s.debugReadDecrypted b) ∧
    (∀ s : State, s.cfg.addrWidth = 13 → s.mask 0x3000#16 = 0x1000#16)

/-- R43, R56: a store to a RAM cell is what the next read of that cell gives; a store to a plain cell changes what no other
plain cell gives. -/
def Obligations.ReadGivesLatestStore : Prop :=
  ∀ (s : State) (a b : Addr) (v : Byte), StateInv s →
    (IsRam s a → (memRead a (memWrite a v s)).1 = v) ∧
    (IsPlain s a → IsPlain s b → s.mask a ≠ s.mask b → (memRead b (memWrite a v s)).1 = byteAt s b)

/-- R59: whatever instruction stores to a RAM cell, the last byte it writes there is what any later fetch from that address
sees: an operand fetch, and an opcode fetch where there is no separate opcode view. The instruction accesses plain cells. -/
def Obligations.StoreIsSeenByFetch : Prop :=
  ∀ (i : Instr) (s t : State) (addr : Addr) (v : Byte), StateInv s → exec i s = .next t → OnlyPlain s t →
    IsRam s addr → lastWrite (s.mask addr) (newAccesses s t) = some v →
    (fetchOperand (t.jump addr)).1 = v ∧ (s.cfg.hasOpcodeView = false → (fetchOpcode (t.jump addr)).1 = v)

/-- R13, R14, R15: the stack byte of SP is at 0x0100 + SP; a push stores there and steps SP down mod 256, a pull steps SP up
mod 256 and reads. -/
def Obligations.StackStaysInItsPage : Prop :=
  ∀ (s : State) (v : Byte), StateInv s →
    (stackAddr s.sp).toNat = 0x100 + s.sp.toNat ∧
    (push v s).sp.toNat = (s.sp.toNat + 255) % 256 ∧
    (push v s).bus = s.bus ++ [.write (s.mask (stackAddr s.sp)) v] ∧
    (IsRam s (stackAddr s.sp) → byteAt (push v s) (stackAddr s.sp) = v) ∧
    (IsPlain s (stackAddr s.sp) → MemorySameBut [stackAddr s.sp] s (push v s)) ∧
    (pull s).2.sp.toNat = (s.sp.toNat + 1) % 256 ∧
    (pull s).2.bus = s.bus ++ [.read .data (s.mask (stackAddr (s.sp + 1#8))) (pull s).1] ∧
    (IsPlain s (stackAddr (s.sp + 1#8)) →
      (pull s).1 = byteAt s (stackAddr (s.sp + 1#8)) ∧ (pull s).2.plat = s.plat)

/-! ## Addressing modes -/

/-- R94, R95, R96: the page-zero modes add the index mod 256, never leave page zero, never cross a page and read nothing. -/
def Obligations.ZeroPageModesStayInPageZero : Prop :=
  ∀ (b2 : Byte) (s : State),
    (modeZp b2 s).ea.toNat = b2.toNat ∧ (modeZp b2 s).crossed = false ∧ (modeZp b2 s).st = s ∧
    (modeZpx b2 s).ea.toNat = (b2.toNat + s.x.toNat) % 256 ∧ (modeZpx b2 s).crossed = false ∧ (modeZpx b2 s).st = s ∧
    (modeZpy b2 s).ea.toNat = (b2.toNat + s.y.toNat) % 256 ∧ (modeZpy b2 s).crossed = false ∧ (modeZpy b2 s).st = s

/-- R97, R98: the absolute modes; the index is unsigned, the sum wraps at 16 bits, and a page is crossed when the high bytes
of the sum and of the base differ. -/
def Obligations.AbsoluteModesAddUnsignedIndex : Prop :=
  ∀ (w : Addr) (s : State),
    (modeAbs w s).ea = w ∧ (modeAbs w s).crossed = false ∧ (modeAbs w s).st = s ∧
    (modeAbsx w s).ea.toNat = (w.toNat + s.x.toNat) % 65536 ∧ (modeAbsx w s).st = s ∧
    ((modeAbsx w s).crossed = true ↔ ((w.toNat + s.x.toNat) % 65536) / 256 ≠ w.toNat / 256) ∧
    (modeAbsy w s).ea.toNat = (w.toNat + s.y.toNat) % 65536 ∧ (modeAbsy w s).st = s ∧
    ((modeAbsy w s).crossed = true ↔ ((w.toNat + s.y.toNat) % 65536) / 256 ≠ w.toNat / 256)

/-- R99, R100: the pointers of (zp,X) and (zp),Y are the two page-zero bytes, the second wrapping inside page zero, low byte
first; two data reads are made and nothing else changes. The pointer cells are plain. -/
def Obligations.IndirectModesReadPageZeroPointers : Prop :=
  ∀ (b2 : Byte) (s : State),
    (IsPlain s (zext16 (b2 + s.x)) → IsPlain s (zext16 (b2 + s.x + 1#8)) →
      (modeIndx b2 s).ea = wordOf (byteAt s (zext16 (b2 + s.x + 1#8))) (byteAt s (zext16 (b2 + s.x))) ∧
      (modeIndx b2 s).crossed = false ∧
      (modeIndx b2 s).st =
        { s with bus := s.bus ++
            [.read .data (s.mask (zext16 (b2 + s.x))) (byteAt s (zext16 (b2 + s.x))),
              .read .data (s.mask (zext16 (b2 + s.x + 1#8))) (byteAt s (zext16 (b2 + s.x + 1#8)))] }) ∧
    (IsPlain s (zext16 b2) → IsPlain s (zext16 (b2 + 1#8)) →
      ∃ base : Addr, base = wordOf (byteAt s (zext16 (b2 + 1#8))) (byteAt s (zext16 b2)) ∧
      (modeIndy b2 s).ea.toNat = (base.toNat + s.y.toNat) % 65536 ∧
      ((modeIndy b2 s).crossed = true ↔ ((base.toNat + s.y.toNat) % 65536) / 256 ≠ base.toNat / 256) ∧
      (modeIndy b2 s).st =
        { s with bus := s.bus ++
            [.read .data (s.mask (zext16 b2)) (byteAt s (zext16 b2)),
              .read .data (s.mask (zext16 (b2 + 1#8))) (byteAt s (zext16 (b2 + 1#8)))] })

/-- R53, R90: after the reads of its mode a read-class form makes one data read of the effective address, a write-class form
one write and no read, a read-modify-write form one read and then one write of the same address. R91, R92, R93: the immediate
forms, the accumulator forms and the implied instructions on registers and flags make no access. -/
def Obligations.ClassesMakeExactlyTheirAccesses : Prop :=
  ∀ (b : Byte) (w : Addr) (s : State),
    (∀ f ∈ readForms b w, Answers (exec f.instr s) fun t =>
      t.bus = (f.resolvedState s).bus ++ [.read .data (s.mask (f.ea s)) (f.operand s)]) ∧
    (∀ f ∈ writeForms b w, Answers (exec f.instr s) fun t =>
      ∃ v, t.bus = (f.resolvedState s).bus ++ [.write (s.mask (f.ea s)) v]) ∧
    (∀ f ∈ rmwForms b w, Answers (exec f.instr s) fun t =>
      ∃ r, t.bus = (f.resolvedState s).bus ++
        [.read .data (s.mask (f.ea s)) (f.operand s), .write (s.mask (f.ea s)) r]) ∧
    ∀ i ∈ noAccessForms b, Answers (exec i s) fun t => t.bus = s.bus ∧ t.plat = s.plat

/-! ## Loads, stores, transfers -/

/-- R110, R111, R112: LDA, LDX and LDY load the operand, set N and Z from it and leave C, V, D and I; the read forms report
one more cycle when a page is crossed, the immediate forms make no access (R93). -/
def Obligations.LoadsMoveOperandAndSetNZ : Prop :=
  ∀ (s : State) (m b : Byte) (w : Addr),
    Answers (exec (.ldaImm m) s) (fun t => t.a = m ∧ SetsNZ m s.p t.p ∧ t.reported = 2 ∧ t.bus = s.bus) ∧
    Answers (exec (.ldxImm m) s) (fun t => t.x = m ∧ SetsNZ m s.p t.p ∧ t.reported = 2 ∧ t.bus = s.bus) ∧
    Answers (exec (.ldyImm m) s) (fun t => t.y = m ∧ SetsNZ m s.p t.p ∧ t.reported = 2 ∧ t.bus = s.bus) ∧
    encode (.ldaImm m) = [0xA9#8, m] ∧ encode (.ldxImm m) = [0xA2#8, m] ∧ encode (.ldyImm m) = [0xA0#8, m] ∧
    (∀ f ∈ ldaForms b w, f.Completes s true fun t => t.a = f.operand s ∧ SetsNZ (f.operand s) s.p t.p) ∧
    (∀ f ∈ ldxForms b w, f.Completes s true fun t => t.x = f.operand s ∧ SetsNZ (f.operand s) s.p t.p) ∧
    (∀ f ∈ ldyForms b w, f.Completes s true fun t => t.y = f.operand s ∧ SetsNZ (f.operand s) s.p t.p)

/-- R113, R114, R115: STA, STX and STY write their register to the effective address, write no flag and have no page
penalty; a cell that is RAM after the reads of the mode then holds it. -/
def Obligations.StoresWriteTheirRegister : Prop :=
  ∀ (s : State) (b : Byte) (w : Addr), StateInv s →
    (∀ f ∈ staForms b w, f.Completes s false fun t =>
      t.p = s.p ∧ t.bus = (f.resolvedState s).bus ++ [.write (s.mask (f.ea s)) s.a] ∧
        (IsRam (f.resolvedState s) (f.ea s) → byteAt t (f.ea s) = s.a)) ∧
    (∀ f ∈ stxForms b w, f.Completes s false fun t =>
      t.p = s.p ∧ t.bus = (f.resolvedState s).bus ++ [.write (s.mask (f.ea s)) s.x] ∧
        (IsRam (f.resolvedState s) (f.ea s) → byteAt t (f.ea s) = s.x)) ∧
    (∀ f ∈ styForms b w, f.Completes s false fun t =>
      t.p = s.p ∧ t.bus = (f.resolvedState s).bus ++ [.write (s.mask (f.ea s)) s.y] ∧
        (IsRam (f.resolvedState s) (f.ea s) → byteAt t (f.ea s) = s.y))

/-- R116 to R121: the six transfers; TXS alone leaves N and Z; none makes an access (R91). -/
def Obligations.TransfersMoveRegisters : Prop :=
  ∀ s : State,
    Answers (exec .tax s) (fun t => t.x = s.a ∧ SetsNZ s.a s.p t.p ∧ t.a = s.a ∧ t.reported = 2 ∧ t.bus = s.bus) ∧
    Answers (exec .tay s) (fun t => t.y = s.a ∧ SetsNZ s.a s.p t.p ∧ t.a = s.a ∧ t.reported = 2 ∧ t.bus = s.bus) ∧
    Answers (exec .txa s) (fun t => t.a = s.x ∧ SetsNZ s.x s.p t.p ∧ t.x = s.x ∧ t.reported = 2 ∧ t.bus = s.bus) ∧
    Answers (exec .tya s) (fun t => t.a = s.y ∧ SetsNZ s.y s.p t.p ∧ t.y = s.y ∧ t.reported = 2 ∧ t.bus = s.bus) ∧
    Answers (exec .tsx s) (fun t => t.x = s.sp ∧ SetsNZ s.sp s.p t.p ∧ t.sp = s.sp ∧ t.reported = 2 ∧ t.bus = s.bus) ∧
    Answers (exec .txs s) (fun t => t.sp = s.x ∧ t.p = s.p ∧ t.x = s.x ∧ t.reported = 2 ∧ t.bus = s.bus) ∧
    encode .tax = [0xAA#8] ∧ encode .tay = [0xA8#8] ∧ encode .txa = [0x8A#8] ∧ encode .tya = [0x98#8] ∧
    encode .tsx = [0xBA#8] ∧ encode .txs = [0x9A#8]

/-! ## Arithmetic -/

/-- `t` holds the binary sum of `a`, `m` and the carry of `p` (R142): the low 8 bits in `A`, the carry out in `C`, the signed
overflow in `V`, N and Z from the result; D and I as before. -/
def HoldsBinarySum (a m : Byte) (p : Flags) (t : State) : Prop :=
  t.a.toNat = (a.toNat + m.toNat + p.c.toNat) % 256 ∧
    (t.p.c = true ↔ 255 < a.toNat + m.toNat + p.c.toNat) ∧
    (t.p.v = true ↔ a.toInt + m.toInt + p.c.toNat < -128 ∨ 127 < a.toInt + m.toInt + p.c.toNat) ∧
    (t.p.z = true ↔ t.a = 0) ∧ t.p.n = bit t.a 7 ∧ t.p.d = p.d ∧ t.p.i = p.i

/-- R130, R142: ADC outside decimal mode, or where decimal mode is absent; the immediate form makes no access (R93). -/
def Obligations.AdcAddsInBinary : Prop :=
  ∀ (s : State) (m b : Byte) (w : Addr), (s.p.d = false ∨ s.cfg.decimalEnabled = false) →
    Answers (exec (.adcImm m) s) (fun t => HoldsBinarySum s.a m s.p t ∧ t.reported = 2 ∧ t.bus = s.bus) ∧
    encode (.adcImm m) = [0x69#8, m] ∧
    ∀ f ∈ adcForms b w, f.Completes s true fun t => HoldsBinarySum s.a (f.operand s) s.p t

/-- `t` holds the binary difference of `a`, `m` and the borrow, the complement of the carry of `p` (R143): `C` is 1 when
there is no borrow, `V` the signed overflow. -/
def HoldsBinaryDifference (a m : Byte) (p : Flags) (t : State) : Prop :=
  (t.a.toNat : Int) = ((a.toNat : Int) - m.toNat - (1 - p.c.toNat)) % 256 ∧
    (t.p.c = true ↔ 0 ≤ (a.toNat : Int) - m.toNat - (1 - p.c.toNat)) ∧
    (t.p.v = true ↔ a.toInt - m.toInt - (1 - p.c.toNat) < -128 ∨ 127 < a.toInt - m.toInt - (1 - p.c.toNat)) ∧
    (t.p.z = true ↔ t.a = 0) ∧ t.p.n = bit t.a 7 ∧ t.p.d = p.d ∧ t.p.i = p.i

/-- R131, R143: SBC outside decimal mode, or where decimal mode is absent; the immediate form makes no access (R93). -/
def Obligations.SbcSubtractsInBinary : Prop :=
  ∀ (s : State) (m b : Byte) (w : Addr), (s.p.d = false ∨ s.cfg.decimalEnabled = false) →
    Answers (exec (.sbcImm m) s) (fun t => HoldsBinaryDifference s.a m s.p t ∧ t.reported = 2 ∧ t.bus = s.bus) ∧
    encode (.sbcImm m) = [0xE9#8, m] ∧
    ∀ f ∈ sbcForms b w, f.Completes s true fun t => HoldsBinaryDifference s.a (f.operand s) s.p t

/-- `t` of R144 before the high-digit correction, for `a`, `m` and a carry: the low digits corrected, the high digits added. -/
def beforeHighCorrection (a m : Byte) (c : Bool) : Nat :=
  16 * (a.toNat / 16 + m.toNat / 16) +
    (if 10 ≤ a.toNat % 16 + m.toNat % 16 + c.toNat then (a.toNat % 16 + m.toNat % 16 + c.toNat + 6) % 16 + 16
      else a.toNat % 16 + m.toNat % 16 + c.toNat)

/-- `t` holds the decimal sum of `a`, `m` and the carry of `p` (R144): N and V from the intermediate value before the high-digit
correction, V being set when both operands have its bit 7 complemented; `C` and `A` after that correction; `Z` from the binary
sum; D and I as before. For valid BCD operands `A` is the valid BCD byte of the decimal sum and `C` its carry. -/
def HoldsDecimalSum (a m : Byte) (p : Flags) (t : State) : Prop :=
  (∃ u, u = beforeHighCorrection a m p.c ∧
    (t.p.n = true ↔ 128 ≤ u % 256) ∧
    (t.p.v = true ↔ (128 ≤ a.toNat ↔ 128 ≤ m.toNat) ∧ ¬(128 ≤ a.toNat ↔ 128 ≤ u % 256)) ∧
    (t.p.c = true ↔ 160 ≤ u) ∧ t.a.toNat = (if 160 ≤ u then u + 96 else u) % 256) ∧
  (t.p.z = true ↔ (a.toNat + m.toNat + p.c.toNat) % 256 = 0) ∧ t.p.d = p.d ∧ t.p.i = p.i ∧
  (ValidBcd a → ValidBcd m →
    ValidBcd t.a ∧ bcdValue t.a = (bcdValue a + bcdValue m + p.c.toNat) % 100 ∧
      (t.p.c = true ↔ 100 ≤ bcdValue a + bcdValue m + p.c.toNat))

/-- R130, R144: ADC in decimal mode, on every operand; on digits that are not decimal R144 is followed as it stands (log 10).
The immediate form makes no access (R93). -/
def Obligations.AdcAddsInDecimal : Prop :=
  ∀ (s : State) (m b : Byte) (w : Addr), s.p.d = true → s.cfg.decimalEnabled = true →
    Answers (exec (.adcImm m) s) (fun t => HoldsDecimalSum s.a m s.p t ∧ t.reported = 2 ∧ t.bus = s.bus) ∧
    ∀ f ∈ adcForms b w, f.Completes s true fun t => HoldsDecimalSum s.a (f.operand s) s.p t

/-- `d` of R145 before the high-digit correction, for `a`, `m` and a carry: the low digits corrected, the high digits
subtracted. -/
def beforeHighBorrow (a m : Byte) (c : Bool) : Int :=
  let al : Int := (a.toNat % 16 : Nat) - (m.toNat % 16 : Nat) - (1 - c.toNat)
  16 * ((a.toNat / 16 : Nat) - (m.toNat / 16 : Nat)) + (if al < 0 then (al - 6) % 16 - 16 else al)

/-- `t` holds the decimal difference of `a`, `m` and the borrow (R145): all four flags are those of the binary subtraction, D
and I as before; `A` is the difference with both digits corrected, and for valid BCD operands the valid BCD byte of the decimal
difference mod 100. -/
def HoldsDecimalDifference (a m : Byte) (p : Flags) (t : State) : Prop :=
  t.p = (subBinary a m p).2 ∧
  (∃ d, d = beforeHighBorrow a m p.c ∧ (t.a.toNat : Int) = (if d < 0 then d - 96 else d) % 256) ∧
  (ValidBcd a → ValidBcd m →
    ValidBcd t.a ∧ (bcdValue t.a : Int) = ((bcdValue a : Int) - bcdValue m - (1 - p.c.toNat)) % 100)

/-- R131, R145: SBC in decimal mode, on every operand; on digits that are not decimal R145 is followed as it stands (log 10).
The immediate form makes no access (R93). -/
def Obligations.SbcSubtractsInDecimal : Prop :=
  ∀ (s : State) (m b : Byte) (w : Addr), s.p.d = true → s.cfg.decimalEnabled = true →
    Answers (exec (.sbcImm m) s) (fun t => HoldsDecimalDifference s.a m s.p t ∧ t.reported = 2 ∧ t.bus = s.bus) ∧
    ∀ f ∈ sbcForms b w, f.Completes s true fun t => HoldsDecimalDifference s.a (f.operand s) s.p t

/-- The flags `q` of a compare of register value `r` with `m`: C when r ≥ m unsigned, Z when equal, N bit 7 of the
difference; V, D and I as before. -/
def HoldsComparison (r m : Byte) (p q : Flags) : Prop :=
  (q.c = true ↔ m.toNat ≤ r.toNat) ∧ (q.z = true ↔ r = m) ∧ q.n = bit (r - m) 7 ∧
    q.v = p.v ∧ q.d = p.d ∧ q.i = p.i

/-- R132, R133, R134: CMP, CPX and CPY write flags alone; the immediate forms make no access (R93). -/
def Obligations.ComparesSetFlagsOnly : Prop :=
  ∀ (s : State) (m b : Byte) (w : Addr),
    Answers (exec (.cmpImm m) s) (fun t => HoldsComparison s.a m s.p t.p ∧ t.a = s.a ∧ t.reported = 2 ∧ t.bus = s.bus) ∧
    Answers (exec (.cpxImm m) s) (fun t => HoldsComparison s.x m s.p t.p ∧ t.x = s.x ∧ t.reported = 2 ∧ t.bus = s.bus) ∧
    Answers (exec (.cpyImm m) s) (fun t => HoldsComparison s.y m s.p t.p ∧ t.y = s.y ∧ t.reported = 2 ∧ t.bus = s.bus) ∧
    encode (.cmpImm m) = [0xC9#8, m] ∧ encode (.cpxImm m) = [0xE0#8, m] ∧ encode (.cpyImm m) = [0xC0#8, m] ∧
    (∀ f ∈ cmpForms b w, f.Completes s true fun t => HoldsComparison s.a (f.operand s) s.p t.p ∧ t.a = s.a) ∧
    (∀ f ∈ cpxForms b w, f.Completes s true fun t => HoldsComparison s.x (f.operand s) s.p t.p ∧ t.x = s.x) ∧
    (∀ f ∈ cpyForms b w, f.Completes s true fun t => HoldsComparison s.y (f.operand s) s.p t.p ∧ t.y = s.y)

/-- R135, R136: INC and DEC of memory, mod 256, by exactly one read and one write of the effective address; C and V are not
written. -/
def Obligations.IncDecChangeMemoryByOne : Prop :=
  ∀ (s : State) (b : Byte) (w : Addr), StateInv s →
    (∀ f ∈ incForms b w, f.Completes s false fun t =>
      ∃ r : Byte, r.toNat = ((f.operand s).toNat + 1) % 256 ∧ SetsNZ r s.p t.p ∧
        t.bus = (f.resolvedState s).bus ++ [.read .data (s.mask (f.ea s)) (f.operand s), .write (s.mask (f.ea s)) r] ∧
        (IsRam (f.resolvedState s) (f.ea s) → byteAt t (f.ea s) = r)) ∧
    (∀ f ∈ decForms b w, f.Completes s false fun t =>
      ∃ r : Byte, r.toNat = ((f.operand s).toNat + 255) % 256 ∧ SetsNZ r s.p t.p ∧
        t.bus = (f.resolvedState s).bus ++ [.read .data (s.mask (f.ea s)) (f.operand s), .write (s.mask (f.ea s)) r] ∧
        (IsRam (f.resolvedState s) (f.ea s) → byteAt t (f.ea s) = r))

/-- R137 to R140: INX, INY, DEX and DEY, mod 256; C and V are not written, and no access is made (R91). -/
def Obligations.IndexIncDecWrap : Prop :=
  ∀ s : State,
    Answers (exec .inx s) (fun t => t.x.toNat = (s.x.toNat + 1) % 256 ∧ SetsNZ t.x s.p t.p ∧ t.reported = 2 ∧ t.bus = s.bus) ∧
    Answers (exec .iny s) (fun t => t.y.toNat = (s.y.toNat + 1) % 256 ∧ SetsNZ t.y s.p t.p ∧ t.reported = 2 ∧ t.bus = s.bus) ∧
    Answers (exec .dex s) (fun t => t.x.toNat = (s.x.toNat + 255) % 256 ∧ SetsNZ t.x s.p t.p ∧ t.reported = 2 ∧ t.bus = s.bus) ∧
    Answers (exec .dey s) (fun t => t.y.toNat = (s.y.toNat + 255) % 256 ∧ SetsNZ t.y s.p t.p ∧ t.reported = 2 ∧ t.bus = s.bus) ∧
    encode .inx = [0xE8#8] ∧ encode .iny = [0xC8#8] ∧ encode .dex = [0xCA#8] ∧ encode .dey = [0x88#8]

/-! ## Logic and shifts -/

/-- R150, R151, R152: AND, ORA and EOR of memory with `A`, bit by bit; the immediate forms make no access (R93). -/
def Obligations.LogicOperatesBitwise : Prop :=
  ∀ (s : State) (m b : Byte) (w : Addr),
    Answers (exec (.andImm m) s) (fun t =>
      (∀ k, bit t.a k = (bit s.a k && bit m k)) ∧ SetsNZ t.a s.p t.p ∧ t.reported = 2 ∧ t.bus = s.bus) ∧
    Answers (exec (.oraImm m) s) (fun t =>
      (∀ k, bit t.a k = (bit s.a k || bit m k)) ∧ SetsNZ t.a s.p t.p ∧ t.reported = 2 ∧ t.bus = s.bus) ∧
    Answers (exec (.eorImm m) s) (fun t =>
      (∀ k, bit t.a k = (bit s.a k ^^ bit m k)) ∧ SetsNZ t.a s.p t.p ∧ t.reported = 2 ∧ t.bus = s.bus) ∧
    encode (.andImm m) = [0x29#8, m] ∧ encode (.oraImm m) = [0x09#8, m] ∧ encode (.eorImm m) = [0x49#8, m] ∧
    (∀ f ∈ andForms b w, f.Completes s true fun t =>
      (∀ k, bit t.a k = (bit s.a k && bit (f.operand s) k)) ∧ SetsNZ t.a s.p t.p) ∧
    (∀ f ∈ oraForms b w, f.Completes s true fun t =>
      (∀ k, bit t.a k = (bit s.a k || bit (f.operand s) k)) ∧ SetsNZ t.a s.p t.p) ∧
    (∀ f ∈ eorForms b w, f.Completes s true fun t =>
      (∀ k, bit t.a k = (bit s.a k ^^ bit (f.operand s) k)) ∧ SetsNZ t.a s.p t.p)

/-- R153: BIT sets Z from A and M, N and V from bits 7 and 6 of M; C, D, I and A are as before, and so is memory, the operand
being read from a plain cell. -/
def Obligations.BitTestsMemory : Prop :=
  ∀ (s : State) (b : Byte) (w : Addr), ∀ f ∈ bitForms b w, f.Completes s false fun t =>
    (t.p.z = true ↔ ∀ k, ¬(bit s.a k = true ∧ bit (f.operand s) k = true)) ∧
      t.p.n = bit (f.operand s) 7 ∧ t.p.v = bit (f.operand s) 6 ∧
      t.p.c = s.p.c ∧ t.p.d = s.p.d ∧ t.p.i = s.p.i ∧ t.a = s.a ∧
      (IsPlain s (f.ea s) → t.plat = s.plat)

/-- The result and the flags of ASL of `m` with the flags `p` (R154). -/
def IsShiftLeft (m : Byte) (p : Flags) (r : Byte) (q : Flags) : Prop :=
  r.toNat = 2 * m.toNat % 256 ∧ SetsNZC r (bit m 7) p q

/-- The result and the flags of LSR (R155). -/
def IsShiftRight (m : Byte) (p : Flags) (r : Byte) (q : Flags) : Prop :=
  r.toNat = m.toNat / 2 ∧ q.n = false ∧ SetsNZC r (bit m 0) p q

/-- The result and the flags of ROL (R156). -/
def IsRotateLeft (m : Byte) (p : Flags) (r : Byte) (q : Flags) : Prop :=
  r.toNat = (2 * m.toNat + p.c.toNat) % 256 ∧ SetsNZC r (bit m 7) p q

/-- The result and the flags of ROR (R157). -/
def IsRotateRight (m : Byte) (p : Flags) (r : Byte) (q : Flags) : Prop :=
  r.toNat = m.toNat / 2 + 128 * p.c.toNat ∧ q.n = p.c ∧ SetsNZC r (bit m 0) p q

/-- R92, R154 to R157: the shifts and rotates of `A` and of memory, where the result is written to the cell the operand was
read from. -/
def Obligations.ShiftsAndRotates : Prop :=
  ∀ (s : State) (b : Byte) (w : Addr), StateInv s →
    Answers (exec .aslAcc s) (fun t => IsShiftLeft s.a s.p t.a t.p ∧ t.plat = s.plat ∧ t.bus = s.bus ∧ t.reported = 2) ∧
    Answers (exec .lsrAcc s) (fun t => IsShiftRight s.a s.p t.a t.p ∧ t.plat = s.plat ∧ t.bus = s.bus ∧ t.reported = 2) ∧
    Answers (exec .rolAcc s) (fun t => IsRotateLeft s.a s.p t.a t.p ∧ t.plat = s.plat ∧ t.bus = s.bus ∧ t.reported = 2) ∧
    Answers (exec .rorAcc s) (fun t => IsRotateRight s.a s.p t.a t.p ∧ t.plat = s.plat ∧ t.bus = s.bus ∧ t.reported = 2) ∧
    encode .aslAcc = [0x0A#8] ∧ encode .lsrAcc = [0x4A#8] ∧ encode .rolAcc = [0x2A#8] ∧ encode .rorAcc = [0x6A#8] ∧
    (∀ f ∈ aslForms b w, f.Completes s false fun t => ∃ r, IsShiftLeft (f.operand s) s.p r t.p ∧
      t.bus = (f.resolvedState s).bus ++ [.read .data (s.mask (f.ea s)) (f.operand s), .write (s.mask (f.ea s)) r] ∧
      (IsRam (f.resolvedState s) (f.ea s) → byteAt t (f.ea s) = r)) ∧
    (∀ f ∈ lsrForms b w, f.Completes s false fun t => ∃ r, IsShiftRight (f.operand s) s.p r t.p ∧
      t.bus = (f.resolvedState s).bus ++ [.read .data (s.mask (f.ea s)) (f.operand s), .write (s.mask (f.ea s)) r] ∧
      (IsRam (f.resolvedState s) (f.ea s) → byteAt t (f.ea s) = r)) ∧
    (∀ f ∈ rolForms b w, f.Completes s false fun t => ∃ r, IsRotateLeft (f.operand s) s.p r t.p ∧
      t.bus = (f.resolvedState s).bus ++ [.read .data (s.mask (f.ea s)) (f.operand s), .write (s.mask (f.ea s)) r] ∧
      (IsRam (f.resolvedState s) (f.ea s) → byteAt t (f.ea s) = r)) ∧
    (∀ f ∈ rorForms b w, f.Completes s false fun t => ∃ r, IsRotateRight (f.operand s) s.p r t.p ∧
      t.bus = (f.resolvedState s).bus ++ [.read .data (s.mask (f.ea s)) (f.operand s), .write (s.mask (f.ea s)) r] ∧
      (IsRam (f.resolvedState s) (f.ea s) → byteAt t (f.ea s) = r))

/-! ## Control flow -/

/-- R101, R170: JMP loads `PC` from its operand, or from the two pointer bytes, the second from the same page as the first;
flags and stack pointer are as before. Plain pointer cells give the bytes they hold, and the platform is as before. -/
def Obligations.JumpsLoadPc : Prop :=
  ∀ (s : State) (w : Addr),
    Answers (exec (.jmpAbs w) s) (fun t =>
      t.pc.toNat = w.toNat % 2 ^ s.cfg.addrWidth ∧ t.p = s.p ∧ t.sp = s.sp ∧ t.plat = s.plat ∧ t.bus = s.bus ∧
        t.reported = 3) ∧
    Answers (exec (.jmpInd w) s) (fun t => ∃ lo hi : Byte, ∃ second : Addr,
      second = wordOf (hiByte w) (loByte w + 1#8) ∧
        t.bus = s.bus ++ [.read .data (s.mask w) lo, .read .data (s.mask second) hi] ∧
        t.pc.toNat = (hi.toNat * 256 + lo.toNat) % 2 ^ s.cfg.addrWidth ∧
        (IsPlain s w → lo = byteAt s w) ∧
        (IsPlain s w → IsPlain s second → hi = byteAt s second ∧ t.plat = s.plat) ∧
        t.p = s.p ∧ t.sp = s.sp ∧ t.reported = 5) ∧
    encode (.jmpAbs w) = [0x4C#8, loByte w, hiByte w] ∧ encode (.jmpInd w) = [0x6C#8, loByte w, hiByte w]

/-- R172: JSR pushes the address of its third byte, high byte first, and jumps to the word of its third byte, fetched after
the pushes, and its second. Where its accesses are of plain cells, the pushed bytes lie in the stack cells that are RAM, every
other byte of memory is as before, and the third byte is what memory holds after the pushes. -/
def Obligations.JsrPushesReturnAddress : Prop :=
  ∀ (s : State) (target : Addr), StateInv s →
    Answers (exec (.jsr target) s) fun t =>
      t.sp = s.sp - 2#8 ∧ t.p = s.p ∧ t.reported = 6 ∧
        (∃ b3 : Byte, t.pc = s.mask (wordOf b3 (loByte target)) ∧
          t.bus = s.bus ++
            [.write (s.mask (stackAddr s.sp)) (hiByte s.pc), .write (s.mask (stackAddr (s.sp - 1#8))) (loByte s.pc),
              .read .operand s.pc b3] ∧
          (OnlyPlain s t → b3 = byteAt t s.pc)) ∧
        (OnlyPlain s t →
          (IsRam s (stackAddr s.sp) → byteAt t (stackAddr s.sp) = hiByte s.pc) ∧
          (IsRam s (stackAddr (s.sp - 1#8)) → byteAt t (stackAddr (s.sp - 1#8)) = loByte s.pc) ∧
          MemorySameBut [stackAddr s.sp, stackAddr (s.sp - 1#8)] s t)

/-- R173: RTS pulls the low and the high byte and continues at the word plus 1; plain cells give the bytes they hold, and the
platform is as before. -/
def Obligations.RtsPullsReturnAddress : Prop :=
  ∀ s : State,
    Answers (exec .rts s) fun t =>
      t.sp = s.sp + 2#8 ∧ t.p = s.p ∧ t.reported = 6 ∧
        ∃ lo hi : Byte,
          t.bus = s.bus ++
            [.read .data (s.mask (stackAddr (s.sp + 1#8))) lo, .read .data (s.mask (stackAddr (s.sp + 2#8))) hi] ∧
          t.pc.toNat = (hi.toNat * 256 + lo.toNat + 1) % 65536 % 2 ^ s.cfg.addrWidth ∧
          (IsPlain s (stackAddr (s.sp + 1#8)) → lo = byteAt s (stackAddr (s.sp + 1#8))) ∧
          (IsPlain s (stackAddr (s.sp + 1#8)) → IsPlain s (stackAddr (s.sp + 2#8)) →
            hi = byteAt s (stackAddr (s.sp + 2#8)) ∧ t.plat = s.plat) ∧
          encode .rts = [0x60#8]

/-- R172, R173: RTS after JSR continues at the instruction after the JSR, with `SP` and the flags as before the call. The stack
cells are RAM and the JSR's third byte lies in a plain cell. -/
def Obligations.RtsReturnsFromJsr : Prop :=
  ∀ (s : State) (target : Addr), StateInv s → IsRam s (stackAddr s.sp) → IsRam s (stackAddr (s.sp - 1#8)) →
    IsPlain s s.pc →
    Answers (exec (.jsr target) s) fun t =>
      Answers (exec .rts t) fun u => u.pc = s.nextPc 1 ∧ u.sp = s.sp ∧ u.p = s.p

/-- The eight branches with their opcode bytes and the condition each tests (R174 to R182). -/
def branchConditions (b2 : Byte) (p : Flags) : List (Instr × Byte × Bool) :=
  [(.bpl b2, 0x10#8, !p.n), (.bmi b2, 0x30#8, p.n), (.bvc b2, 0x50#8, !p.v), (.bvs b2, 0x70#8, p.v),
    (.bcc b2, 0x90#8, !p.c), (.bcs b2, 0xB0#8, p.c), (.bne b2, 0xD0#8, !p.z), (.beq b2, 0xF0#8, p.z)]

/-- R102, R104, R174 to R182: a branch whose condition holds goes to `PC` plus the signed displacement, mod 65536 and then
mod 2^W, else on; 2 cycles not taken, 3 taken, 4 taken across a page; flags, registers and memory are as before. -/
def Obligations.BranchesFollowTheirFlag : Prop :=
  ∀ (s : State) (b2 : Byte), ∀ ic ∈ branchConditions b2 s.p, encode ic.1 = [ic.2.1, b2] ∧
    ∃ target : Nat, (target : Int) = ((s.pc.toNat : Int) + b2.toInt) % 65536 ∧
      Answers (exec ic.1 s) fun t =>
        (ic.2.2 = true → t.pc.toNat = target % 2 ^ s.cfg.addrWidth ∧
          t.reported = if target / 256 = s.pc.toNat / 256 then 3 else 4) ∧
        (ic.2.2 = false → t.pc = s.pc ∧ t.reported = 2) ∧
        t.p = s.p ∧ t.a = s.a ∧ t.x = s.x ∧ t.y = s.y ∧ t.sp = s.sp ∧ t.plat = s.plat ∧ t.bus = s.bus

/-! ## Stack instructions -/

/-- R190, R192: PHA pushes `A`, PHP the status byte with bits 5 and 4 set; no flag changes. -/
def Obligations.PushInstructionsStore : Prop :=
  ∀ s : State, StateInv s →
    Answers (exec .pha s) (fun t => t.sp = s.sp - 1#8 ∧ t.a = s.a ∧ t.p = s.p ∧ t.reported = 3 ∧
      t.bus = s.bus ++ [.write (s.mask (stackAddr s.sp)) s.a] ∧
      (IsRam s (stackAddr s.sp) → byteAt t (stackAddr s.sp) = s.a)) ∧
    Answers (exec .php s) (fun t => ∃ v : Byte, t.sp = s.sp - 1#8 ∧ t.p = s.p ∧ t.reported = 3 ∧
      unpackP v = s.p ∧ bit v 5 = true ∧ bit v 4 = true ∧
      t.bus = s.bus ++ [.write (s.mask (stackAddr s.sp)) v] ∧
      (IsRam s (stackAddr s.sp) → byteAt t (stackAddr s.sp) = v)) ∧
    encode .pha = [0x48#8] ∧ encode .php = [0x08#8]

/-- R191, R193: PLA pulls `A` and sets N and Z, PLP pulls all six flags, bits 5 and 4 ignored. -/
def Obligations.PullInstructionsLoad : Prop :=
  ∀ s : State,
    Answers (exec .pla s) (fun t => t.sp = s.sp + 1#8 ∧ SetsNZ t.a s.p t.p ∧ t.reported = 4 ∧
      t.bus = s.bus ++ [.read .data (s.mask (stackAddr (s.sp + 1#8))) t.a] ∧
      (IsPlain s (stackAddr (s.sp + 1#8)) → t.a = byteAt s (stackAddr (s.sp + 1#8)))) ∧
    Answers (exec .plp s) (fun t => ∃ v : Byte, t.sp = s.sp + 1#8 ∧ t.reported = 4 ∧
      t.bus = s.bus ++ [.read .data (s.mask (stackAddr (s.sp + 1#8))) v] ∧
      t.p = { n := bit v 7, v := bit v 6, d := bit v 3, i := bit v 2, z := bit v 1, c := bit v 0 } ∧
      (IsPlain s (stackAddr (s.sp + 1#8)) → v = byteAt s (stackAddr (s.sp + 1#8)))) ∧
    encode .pla = [0x68#8] ∧ encode .plp = [0x28#8]

/-! ## Flag instructions, NOP, BRK, RTI -/

/-- R200 to R207: each flag instruction writes its flag and nothing else; NOP changes nothing. -/
def Obligations.FlagInstructionsWriteOneFlag : Prop :=
  ∀ s : State,
    exec .clc s = .next { s with p := { s.p with c := false }, phase := .atCheck, cyc := 0, reported := 2 } ∧
    exec .sec s = .next { s with p := { s.p with c := true }, phase := .atCheck, cyc := 0, reported := 2 } ∧
    exec .cli s = .next { s with p := { s.p with i := false }, phase := .atCheck, cyc := 0, reported := 2 } ∧
    exec .sei s = .next { s with p := { s.p with i := true }, phase := .atCheck, cyc := 0, reported := 2 } ∧
    exec .cld s = .next { s with p := { s.p with d := false }, phase := .atCheck, cyc := 0, reported := 2 } ∧
    exec .sed s = .next { s with p := { s.p with d := true }, phase := .atCheck, cyc := 0, reported := 2 } ∧
    exec .clv s = .next { s with p := { s.p with v := false }, phase := .atCheck, cyc := 0, reported := 2 } ∧
    exec .nop s = .next { s with phase := .atCheck, cyc := 0, reported := 2 } ∧
    encode .clc = [0x18#8] ∧ encode .sec = [0x38#8] ∧ encode .cli = [0x58#8] ∧ encode .sei = [0x78#8] ∧
    encode .cld = [0xD8#8] ∧ encode .sed = [0xF8#8] ∧ encode .clv = [0xB8#8] ∧ encode .nop = [0xEA#8]

/-- R208: BRK enters through the IRQ vector whatever `I` is, by the entry of R236 with the address after the padding byte as
the return address and a status byte of the six flags whose bits 5 and 4 are 1. -/
def Obligations.BrkEntersThroughIrqVector : Prop :=
  ∀ s : State,
    Answers (exec .brk s) fun t =>
      Entered .brk { s with pc := s.nextPc 1 } t ∧ InputsSame s t ∧ t.phase = .atCheck ∧ t.reported = 7 ∧
        bit (packP true s.p) 5 = true ∧ bit (packP true s.p) 4 = true ∧ unpackP (packP true s.p) = s.p ∧
        encode .brk = [0x00#8]

/-- R209: RTI pulls the status, then PC low and high, with no increment, and nothing else; plain cells give the bytes they
hold, and the platform is as before. -/
def Obligations.RtiPullsStatusAndPc : Prop :=
  ∀ s : State,
    Answers (exec .rti s) fun t =>
      t.sp = s.sp + 3#8 ∧ t.a = s.a ∧ t.x = s.x ∧ t.y = s.y ∧ t.phase = .atCheck ∧ t.reported = 6 ∧
        encode .rti = [0x40#8] ∧
        ∃ v lo hi : Byte,
          t.bus = s.bus ++
            [.read .data (s.mask (stackAddr (s.sp + 1#8))) v, .read .data (s.mask (stackAddr (s.sp + 2#8))) lo,
              .read .data (s.mask (stackAddr (s.sp + 3#8))) hi] ∧
          t.p = { n := bit v 7, v := bit v 6, d := bit v 3, i := bit v 2, z := bit v 1, c := bit v 0 } ∧
          t.pc = s.mask (wordOf hi lo) ∧
          (IsPlain s (stackAddr (s.sp + 1#8)) → v = byteAt s (stackAddr (s.sp + 1#8))) ∧
          (OnlyPlain s t →
            lo = byteAt s (stackAddr (s.sp + 2#8)) ∧ hi = byteAt s (stackAddr (s.sp + 3#8)) ∧ t.plat = s.plat)

/-! ## Undefined opcodes -/

/-- R220: what each policy gives an undefined opcode byte: `refuse` no meaning; `nop` the fetch of the operand bytes at the
addresses that follow and nothing else; `jam` a step back onto the byte. That a row `op(name)`, "outside this spec", is
refused is the model's choice (log 9). -/
def Obligations.UndefinedBytesFollowThePolicy : Prop :=
  ∀ (s : State) (op : Byte),
    (s.cfg.undefPolicy = .refuse → exec (.undefined op) s = .refused (.undefinedOpcode op)) ∧
    (∀ rows len cycles, s.cfg.undefPolicy = .table rows → rows.lookup op = some (.nop len cycles) →
      Answers (exec (.undefined op) s) fun t =>
        (StateInv s → t.pc = s.nextPc (len - 1)) ∧ t.reported = cycles ∧ t.phase = .atCheck ∧ t.a = s.a ∧ t.x = s.x ∧
          t.y = s.y ∧ t.sp = s.sp ∧ t.p = s.p ∧ (OnlyPlain s t → t.plat = s.plat) ∧
          ∃ bytes : List Byte, bytes.length = len - 1 ∧
            t.bus = s.bus ++ bytes.mapIdx fun k v => .read .operand (s.nextPc k) v) ∧
    (∀ rows, s.cfg.undefPolicy = .table rows → rows.lookup op = some .jam →
      exec (.undefined op) s =
        .next { s with pc := s.mask (s.pc - 1#16), phase := .atFetch, cyc := 0, reported := 1 }) ∧
    (∀ rows name, s.cfg.undefPolicy = .table rows → rows.lookup op = some (.op name) →
      exec (.undefined op) s = .refused (.undefinedOperation op name))

/-- R220: under `jam` the step comes back to the state it left, whatever the interrupt lines are: only the recorded accesses
and the report differ. The opcode byte lies in a plain cell. -/
def Obligations.JamStepReturnsToItsState : Prop :=
  ∀ (s : State) (op : Byte) (rows : List (Byte × UndefEntry)), StateInv s → s.phase = .atFetch → s.resetLine = false →
    IsPlain s s.pc → opcodeByteAt s s.pc = op → op ∈ undefinedOpcodes →
    s.cfg.undefPolicy = .table rows → rows.lookup op = some .jam →
    step s = .next { s with bus := [.read .opcode s.pc op], reported := 1 }

/-! ## Frames: what no instruction changes -/

/-- R10, R11: only the instructions listed for a register write it. -/
def Obligations.RegistersHaveOnlyTheirWriters : Prop :=
  ∀ (i : Instr) (s t : State), exec i s = .next t →
    ((writes i).a = false → t.a = s.a) ∧ ((writes i).x = false → t.x = s.x) ∧ ((writes i).y = false → t.y = s.y) ∧
      ((writes i).sp = false → t.sp = s.sp)

/-- R20: only the instructions listed for a flag write it. -/
def Obligations.FlagsHaveOnlyTheirWriters : Prop :=
  ∀ (i : Instr) (s t : State), exec i s = .next t →
    ((writes i).c = false → t.p.c = s.p.c) ∧ ((writes i).nz = false → t.p.z = s.p.z ∧ t.p.n = s.p.n) ∧
      ((writes i).i = false → t.p.i = s.p.i) ∧ ((writes i).d = false → t.p.d = s.p.d) ∧ ((writes i).v = false → t.p.v = s.p.v)

/-- R53, R90: where an instruction accesses plain cells alone, every byte of memory outside the cells it stores to reads as
before, and an instruction that stores nothing leaves every byte. A core that has no opcode view keeps the array it does not
use, and so does one with a view in an instruction that stores nothing. (An access to a device may change any cell, R43, and
what a store changes in an opcode view is open, R59: the statement says nothing of either.) -/
def Obligations.MemoryChangesOnlyWhereStored : Prop :=
  ∀ (i : Instr) (s t : State), exec i s = .next t → OnlyPlain s t →
    MemorySameBut (storedAddrs i s) s t ∧
      (s.cfg.hasOpcodeView = false ∨ storedAddrs i s = [] → t.opcodeView = s.opcodeView) ∧
      (storedAddrs i s = [] → t.plat = s.plat)

/-- R21, R22, R42: no instruction changes an input line, the NMI latch or a parameter. -/
def Obligations.InstructionsLeaveInputsAlone : Prop :=
  ∀ (i : Instr) (s t : State), exec i s = .next t → InputsSame s t

/-- R16, R183: an instruction that is no control transfer leaves `PC` at the next sequential instruction, where the fetch
put it. -/
def Obligations.SequentialInstructionsLeavePc : Prop :=
  ∀ (i : Instr) (s t : State), i.isUndefined = false → (writes i).pc = false → exec i s = .next t → t.pc = s.pc

/-! ## Host -/

/-- R280: a saved state restored into a core bound to an equivalent bus continues exactly as the original would. -/
def Obligations.RestoredStateContinuesIdentically : Prop :=
  ∀ s t : State, StateInv s → t.cfg = s.cfg → t.plat = s.plat → t.draws = s.draws →
    (t.restore s.save).save = s.save ∧ step (t.restore s.save) = step s

/-- R277: `Run(budget)` answers exactly what the loop of R277 ends with: it takes `n` whole core steps, counts the cycles they
report, stops because the budget is consumed or the core is held in reset, and stops at the first such boundary, so that it
overruns by less than the length of its last step. Under the policy `refuse`, twice the budget of steps is enough and the
overrun at most 6 cycles. -/
def Obligations.RunStopsAtBudget : Prop :=
  (∀ (budget consumed : Nat) (s t : State),
    (∃ fuel, runFor fuel budget s = .done consumed t) ↔ RunsFor budget 0 s consumed t) ∧
  (∀ (budget consumed : Nat) (s t : State), RunsFor budget 0 s consumed t →
    ∃ n, CoreSteps n s consumed t ∧ (budget ≤ consumed ∨ t.resetLine = true) ∧
      (n = 0 ∨ ∃ (m c : Nat) (u : State), n = m + 1 ∧ CoreSteps m s c u ∧ c < budget ∧ step u = .next t ∧
        consumed = c + t.reported)) ∧
  (∀ (budget : Nat) (s : State), s.cfg.undefPolicy = .refuse →
    (∃ (consumed : Nat) (t : State), runBudget budget s = .done consumed t ∧ consumed ≤ budget + 6) ∨
      ∃ (consumed : Nat) (r : Refusal), runBudget budget s = .refused consumed r)

/-- R278: a claim gives its own end predicate. The model's choice (log 23, log 16) is that the predicate is tested at every step
boundary, also between an instruction and its interrupt check, and that `runUntil` takes core steps alone: it stops at the
first such boundary that meets the predicate, and counts the cycles the steps report. -/
def Obligations.RunUntilStopsAtItsEnd : Prop :=
  ∀ (ends : State → Bool) (fuel consumed : Nat) (s t : State), runUntil ends fuel 0 s = .done consumed t →
    RunsUntil (fun u => ends u = true) s t ∧
      ∃ n, n ≤ fuel ∧ CoreSteps n s consumed t ∧ ends t = true ∧
        ∀ (m c : Nat) (u : State), m < n → CoreSteps m s c u → ends u = false

/-! ## Accesses -/

/-- R43, R56: the platform changes in a core step only through the accesses the step records, made one at a time in their
order: each read returns what the platform answers then, each access leaves the platform as `bus_read` and `bus_write` say.
The same of one instruction. -/
def Obligations.AccessesChangeThePlatformInOrder : Prop :=
  (∀ s t : State, step s = .next t → Accesses s.cfg s.plat t.bus t.plat) ∧
  ∀ (i : Instr) (s t : State), exec i s = .next t →
    ∃ new, t.bus = s.bus ++ new ∧ Accesses s.cfg s.plat new t.plat
end

