-- ==== Sys2Proof/Laws/Bits.lean ====
section
/-! SUPPORT. The small lemmas of the bit fields and of the bus mask. -/

namespace Sys2Proof.Machine

theorem toNat_wordOf (hi lo : Byte) : (wordOf hi lo).toNat = hi.toNat * 256 + lo.toNat := by
  have hlo := lo.isLt
  rw [wordOf, BitVec.toNat_append, ← Nat.shiftLeft_add_eq_or_of_lt (by simpa using hlo), Nat.shiftLeft_eq]

theorem toNat_hiByte (a : Addr) : (hiByte a).toNat = a.toNat / 256 := by
  have ha := a.isLt
  simp only [hiByte, BitVec.extractLsb'_toNat, Nat.shiftRight_eq_div_pow]
  omega

theorem toNat_loByte (a : Addr) : (loByte a).toNat = a.toNat % 256 := by
  simp [loByte, BitVec.extractLsb'_toNat]

theorem toNat_zext16 (b : Byte) : (zext16 b).toNat = b.toNat := by
  have hb := b.isLt
  simp only [zext16, BitVec.toNat_setWidth]
  omega

@[simp] theorem loByte_wordOf (hi lo : Byte) : loByte (wordOf hi lo) = lo := by
  apply BitVec.eq_of_toNat_eq
  have := lo.isLt
  rw [toNat_loByte, toNat_wordOf]
  omega

@[simp] theorem hiByte_wordOf (hi lo : Byte) : hiByte (wordOf hi lo) = hi := by
  apply BitVec.eq_of_toNat_eq
  have := lo.isLt
  rw [toNat_hiByte, toNat_wordOf]
  omega

@[simp] theorem wordOf_hiByte_loByte (a : Addr) : wordOf (hiByte a) (loByte a) = a := by
  apply BitVec.eq_of_toNat_eq
  rw [toNat_wordOf, toNat_hiByte, toNat_loByte]
  omega

theorem toNat_maskTo (w : Nat) (a : Addr) : (maskTo w a).toNat = a.toNat % 2 ^ w := by
  have ha := a.isLt
  have := Nat.mod_le a.toNat (2 ^ w)
  simp only [maskTo, BitVec.toNat_ofNat]
  exact Nat.mod_eq_of_lt (by omega)

theorem maskTo_lt (w : Nat) (a : Addr) : (maskTo w a).toNat < 2 ^ w := by
  rw [toNat_maskTo]
  exact Nat.mod_lt _ (by positivity)

@[simp] theorem maskTo_maskTo (w : Nat) (a : Addr) : maskTo w (maskTo w a) = maskTo w a := by
  apply BitVec.eq_of_toNat_eq
  simp [toNat_maskTo]

/-- An address already inside the bus width is left alone. -/
theorem maskTo_eq_self {w : Nat} {a : Addr} (h : a.toNat < 2 ^ w) : maskTo w a = a := by
  apply BitVec.eq_of_toNat_eq
  rw [toNat_maskTo, Nat.mod_eq_of_lt h]

/-- With W = 16 the mask is the identity (R40). -/
@[simp] theorem maskTo_sixteen (a : Addr) : maskTo 16 a = a := maskTo_eq_self a.isLt

/-- Two masked addresses are equal when the addresses agree mod 2^W. -/
theorem maskTo_eq_iff (w : Nat) (a b : Addr) : maskTo w a = maskTo w b ↔ a.toNat % 2 ^ w = b.toNat % 2 ^ w := by
  rw [← BitVec.toNat_inj, toNat_maskTo, toNat_maskTo]

end Sys2Proof.Machine
end

