-- ==== Sys2Proof/Laws/Memory.lean ====
section
/-! SUPPORT. The laws of the canonical memory list: a write is seen by a read of the same address and of no other, and keeps
the canonical form and the bound on its addresses. -/

namespace Sys2Proof.Machine

@[simp] theorem Memory.read_nil (a : Nat) : Memory.read [] a = Memory.fill := rfl

/-- An address that no entry lists reads as the fill byte. -/
theorem Memory.read_of_not_listed (m : Memory) (a : Nat) (h : ∀ c ∈ m, c.1 ≠ a) : Memory.read m a = Memory.fill := by
  induction m with
  | nil => rfl
  | cons c m ih =>
    obtain ⟨k, v⟩ := c
    have hk : k ≠ a := h (k, v) (by simp)
    simp only [Memory.read, if_neg hk]
    exact ih fun c hc => h c (by simp [hc])

theorem Memory.wf_cons {k : Nat} {v : Byte} {m : Memory} :
    Memory.wf ((k, v) :: m) = true ↔ v ≠ Memory.fill ∧ (∀ c ∈ m, k < c.1) ∧ Memory.wf m = true := by
  simp [Memory.wf, and_assoc]

/-- Below the first listed address everything reads as the fill byte. -/
theorem Memory.read_of_lt {m : Memory} {a : Nat} (h : ∀ c ∈ m, a < c.1) : Memory.read m a = Memory.fill :=
  Memory.read_of_not_listed m a fun c hc => Nat.ne_of_gt (h c hc)

theorem Memory.read_write_same (m : Memory) (a : Nat) (v : Byte) (hm : m.wf = true) :
    (m.write a v).read a = v := by
  induction m with
  | nil =>
    by_cases hv : v = Memory.fill <;> simp [Memory.write, Memory.read, hv]
  | cons c m ih =>
    obtain ⟨k, w⟩ := c
    obtain ⟨-, hk, hm'⟩ := Memory.wf_cons.mp hm
    by_cases hlt : a < k
    · by_cases hv : v = Memory.fill
      · simp only [Memory.write, if_pos hlt, if_pos hv, Memory.read, if_neg (Nat.ne_of_gt hlt)]
        rw [hv]
        exact Memory.read_of_lt fun c hc => lt_trans hlt (hk c hc)
      · simp [Memory.write, Memory.read, hlt, hv]
    · by_cases heq : a = k
      · by_cases hv : v = Memory.fill
        · simp only [Memory.write, if_neg hlt, if_pos heq, if_pos hv]
          rw [hv, heq]
          exact Memory.read_of_lt hk
        · simp [Memory.write, Memory.read, heq, hv]
      · simp only [Memory.write, if_neg hlt, if_neg heq, Memory.read, if_neg (Ne.symm heq)]
        exact ih hm'

theorem Memory.read_write_other (m : Memory) {a b : Nat} (v : Byte) (h : b ≠ a) :
    (m.write a v).read b = m.read b := by
  induction m with
  | nil =>
    by_cases hv : v = Memory.fill <;> simp [Memory.write, Memory.read, hv, h.symm]
  | cons c m ih =>
    obtain ⟨k, w⟩ := c
    by_cases hlt : a < k
    · by_cases hv : v = Memory.fill <;> simp [Memory.write, Memory.read, hlt, hv, h.symm]
    · by_cases heq : a = k
      · subst heq
        by_cases hv : v = Memory.fill <;> simp [Memory.write, Memory.read, hv, h.symm]
      · simp only [Memory.write, if_neg hlt, if_neg heq, Memory.read]
        rw [ih]

/-- The addresses listed after a write are the one written and some of those before. -/
theorem Memory.mem_write {m : Memory} {a : Nat} {v : Byte} {c : Host.Cell} (hc : c ∈ m.write a v) :
    c.1 = a ∨ c ∈ m := by
  induction m with
  | nil =>
    by_cases hv : v = Memory.fill
    · simp [Memory.write, hv] at hc
    · simp only [Memory.write, if_neg hv, List.mem_singleton] at hc
      exact .inl (by rw [hc])
  | cons d m ih =>
    obtain ⟨k, w⟩ := d
    simp only [Memory.write] at hc
    split at hc
    · split at hc
      · exact .inr hc
      · rcases List.mem_cons.mp hc with rfl | hc
        · exact .inl rfl
        · exact .inr hc
    · split at hc
      · split at hc
        · exact .inr (List.mem_cons_of_mem _ hc)
        · rcases List.mem_cons.mp hc with rfl | hc
          · exact .inl rfl
          · exact .inr (List.mem_cons_of_mem _ hc)
      · rcases List.mem_cons.mp hc with rfl | hc
        · exact .inr (List.mem_cons_self ..)
        · exact (ih hc).imp_right (List.mem_cons_of_mem _)

theorem Memory.write_wf {m : Memory} (a : Nat) (v : Byte) (hm : m.wf = true) : (m.write a v).wf = true := by
  induction m with
  | nil =>
    by_cases hv : v = Memory.fill <;> simp [Memory.write, Memory.wf, hv]
  | cons c m ih =>
    obtain ⟨k, w⟩ := c
    obtain ⟨hw, hk, hm'⟩ := Memory.wf_cons.mp hm
    simp only [Memory.write]
    split
    · rename_i hlt
      split
      · exact hm
      · rename_i hv
        refine Memory.wf_cons.mpr ⟨hv, ?_, hm⟩
        intro c hc
        rcases List.mem_cons.mp hc with rfl | hc
        · exact hlt
        · exact lt_trans hlt (hk c hc)
    · split
      · rename_i heq
        split
        · exact hm'
        · rename_i hv
          exact Memory.wf_cons.mpr ⟨hv, heq ▸ hk, hm'⟩
      · rename_i hlt heq
        refine Memory.wf_cons.mpr ⟨hw, ?_, ih hm'⟩
        intro c hc
        rcases Memory.mem_write hc with h | h
        · omega
        · exact hk c h

theorem Memory.below_iff {n : Nat} {m : Memory} : m.below n = true ↔ ∀ c ∈ m, c.1 < n := by
  simp [Memory.below]

theorem Memory.write_below {m : Memory} {n a : Nat} (v : Byte) (hm : m.below n = true) (ha : a < n) :
    (m.write a v).below n = true := by
  rw [Memory.below_iff] at *
  intro c hc
  rcases Memory.mem_write hc with h | h
  · omega
  · exact hm c h

end Sys2Proof.Machine
end

