-- ==== Sys2Proof/Laws/Platform.lean ====
section
/-! SUPPORT. The platform behind the bus: what a read and a write of a plain cell do to it, and that no access, whatever a device
does, breaks the canonical form of its byte arrays. -/

namespace Sys2Proof.Machine

/-! ## Changes -/

theorem Platform.changes_view_mem (w : Nat) (M : Platform) (l : List (Addr × Byte)) :
    (M.changes w (l.map fun p => .view p.1 p.2)).mem = M.mem := by
  induction l generalizing M with
  | nil => rfl
  | cons p l ih => exact ih _

theorem Platform.changes_view_regions (w : Nat) (M : Platform) (l : List (Addr × Byte)) :
    (M.changes w (l.map fun p => .view p.1 p.2)).regions = M.regions := by
  induction l generalizing M with
  | nil => rfl
  | cons p l ih => exact ih _

@[simp] theorem Platform.viewStore_mem (c : Config) (M : Platform) (a : Addr) (v : Byte) :
    (M.viewStore c a v).mem = M.mem := by
  unfold Platform.viewStore
  split
  · exact changes_view_mem _ _ _
  · rfl

@[simp] theorem Platform.viewStore_regions (c : Config) (M : Platform) (a : Addr) (v : Byte) :
    (M.viewStore c a v).regions = M.regions := by
  unfold Platform.viewStore
  split
  · exact changes_view_regions _ _ _
  · rfl

/-- Without an opcode view a store changes no view (R59). -/
theorem Platform.viewStore_none {c : Config} (h : c.hasOpcodeView = false) (M : Platform) (a : Addr) (v : Byte) :
    M.viewStore c a v = M := by
  simp [Platform.viewStore, h]

/-- What answers at an address depends on the regions alone. -/
theorem Platform.kindAt_congr {M N : Platform} (h : N.regions = M.regions) (q : Addr) : N.kindAt q = M.kindAt q := by
  simp only [Platform.kindAt, h]

/-! ## Plain cells -/

/-- A plain cell gives the byte of the program space to every kind of read but the opcode read (R43, R44). -/
theorem Platform.value_plain {c : Config} {M : Platform} {k : ReadKind} {a : Addr} (h : M.kindAt a ≠ .device)
    (hk : k ≠ .opcode) : M.value c k a = M.mem.read a.toNat := by
  unfold Platform.value
  split
  · contradiction
  · split
    · contradiction
    · rfl

/-- A plain cell gives the byte of the opcode view, where there is one, to the opcode read (R47). -/
theorem Platform.value_opcode {c : Config} {M : Platform} {a : Addr} (h : M.kindAt a ≠ .device) :
    M.value c .opcode a = if c.hasOpcodeView then M.opcodeView.read a.toNat else M.mem.read a.toNat := by
  unfold Platform.value
  split
  · contradiction
  · rfl

/-- A read of a plain cell leaves the platform unchanged (R43). -/
theorem Platform.afterRead_plain {c : Config} {M : Platform} {k : ReadKind} {a : Addr} (h : M.kindAt a ≠ .device) :
    M.afterRead c k a = M := by
  unfold Platform.afterRead
  split
  · contradiction
  · rfl

/-- A store to a RAM cell is what the cell then holds (R43). -/
theorem Platform.afterWrite_read_same {c : Config} {M : Platform} {a : Addr} {v : Byte} (hm : M.mem.wf = true)
    (h : M.kindAt a = .ram) : (M.afterWrite c a v).mem.read a.toNat = v := by
  simp only [Platform.afterWrite, h]
  exact Memory.read_write_same _ _ _ hm

/-- A store to a plain cell leaves the program space elsewhere. -/
theorem Platform.afterWrite_read_other {c : Config} {M : Platform} {a : Addr} {v : Byte} {k : Nat}
    (h : M.kindAt a ≠ .device) (hk : a.toNat ≠ k) : (M.afterWrite c a v).mem.read k = M.mem.read k := by
  unfold Platform.afterWrite
  split
  · exact Memory.read_write_other _ _ (Ne.symm hk)
  · rw [viewStore_mem]
  · contradiction

/-- A store to a ROM cell leaves the program space. -/
theorem Platform.afterWrite_mem_rom {c : Config} {M : Platform} {a : Addr} {v : Byte} (h : M.kindAt a = .rom) :
    (M.afterWrite c a v).mem = M.mem := by
  simp [Platform.afterWrite, h]

/-- A store to a plain cell leaves what the addresses are. -/
theorem Platform.afterWrite_regions {c : Config} {M : Platform} {a : Addr} {v : Byte} (h : M.kindAt a ≠ .device) :
    (M.afterWrite c a v).regions = M.regions := by
  unfold Platform.afterWrite
  split
  · exact viewStore_regions _ _ _ _
  · exact viewStore_regions _ _ _ _
  · contradiction

/-- A store to a plain cell leaves the opcode view, where the core has none. -/
theorem Platform.afterWrite_view {c : Config} {M : Platform} {a : Addr} {v : Byte} (hv : c.hasOpcodeView = false)
    (h : M.kindAt a ≠ .device) : (M.afterWrite c a v).opcodeView = M.opcodeView := by
  unfold Platform.afterWrite
  split
  · rw [viewStore_none hv]
  · rw [viewStore_none hv]
  · contradiction

/-! ## The canonical form -/

/-- Both byte arrays are in canonical form and lie inside an address space of `w` bits. -/
structure Platform.Ok (w : Nat) (M : Platform) : Prop where
  memWf : M.mem.wf = true
  memFits : M.mem.below (2 ^ w) = true
  viewWf : M.opcodeView.wf = true
  viewFits : M.opcodeView.below (2 ^ w) = true

theorem Platform.change_ok {w : Nat} {M : Platform} (h : M.Ok w) (c : PlatformChange) : (M.change w c).Ok w := by
  cases c with
  | cell a v => exact ⟨Memory.write_wf _ _ h.1, Memory.write_below _ h.2 (maskTo_lt _ _), h.3, h.4⟩
  | view a v => exact ⟨h.1, h.2, Memory.write_wf _ _ h.3, Memory.write_below _ h.4 (maskTo_lt _ _)⟩
  | regions rs => exact ⟨h.1, h.2, h.3, h.4⟩

theorem Platform.changes_ok {w : Nat} {M : Platform} (h : M.Ok w) (cs : List PlatformChange) : (M.changes w cs).Ok w := by
  induction cs generalizing M with
  | nil => exact h
  | cons c cs ih => exact ih (change_ok h c)

theorem Platform.after_ok {w : Nat} {M : Platform} (h : M.Ok w) (e : DeviceEffect) : (M.after w e).Ok w :=
  let ⟨h1, h2, h3, h4⟩ := changes_ok h e.changes
  ⟨h1, h2, h3, h4⟩

theorem Platform.afterRead_ok {c : Config} {M : Platform} (h : M.Ok c.addrWidth) (k : ReadKind) (a : Addr) :
    (M.afterRead c k a).Ok c.addrWidth := by
  unfold Platform.afterRead
  split
  · split
    · exact h
    · exact after_ok h _
  · exact h

theorem Platform.viewStore_ok {c : Config} {M : Platform} (h : M.Ok c.addrWidth) (a : Addr) (v : Byte) :
    (M.viewStore c a v).Ok c.addrWidth := by
  unfold Platform.viewStore
  split
  · exact changes_ok h _
  · exact h

theorem Platform.afterWrite_ok {c : Config} {M : Platform} (h : M.Ok c.addrWidth) {a : Addr}
    (ha : a.toNat < 2 ^ c.addrWidth) (v : Byte) : (M.afterWrite c a v).Ok c.addrWidth := by
  have hv := viewStore_ok h a v
  unfold Platform.afterWrite
  split
  · exact ⟨Memory.write_wf _ _ h.1, Memory.write_below _ h.2 ha, hv.3, hv.4⟩
  · exact hv
  · exact after_ok h _

end Sys2Proof.Machine
end

