-- ==== Sys2Proof/Laws/State.lean ====
section
/-! SUPPORT. What each named update of the state does to each field: one lemma per field per update, and that no update changes
the mask or what answers at an address. -/

namespace Sys2Proof.Machine

/-! ### advance -/

@[simp] theorem State.advance_a (s : State) : (s.advance).a = s.a := rfl
@[simp] theorem State.advance_x (s : State) : (s.advance).x = s.x := rfl
@[simp] theorem State.advance_y (s : State) : (s.advance).y = s.y := rfl
@[simp] theorem State.advance_sp (s : State) : (s.advance).sp = s.sp := rfl
@[simp] theorem State.advance_p (s : State) : (s.advance).p = s.p := rfl
@[simp] theorem State.advance_pc (s : State) : (s.advance).pc = s.nextPc 1 := rfl
@[simp] theorem State.advance_irqLine (s : State) : (s.advance).irqLine = s.irqLine := rfl
@[simp] theorem State.advance_nmiLine (s : State) : (s.advance).nmiLine = s.nmiLine := rfl
@[simp] theorem State.advance_resetLine (s : State) : (s.advance).resetLine = s.resetLine := rfl
@[simp] theorem State.advance_nmiPending (s : State) : (s.advance).nmiPending = s.nmiPending := rfl
@[simp] theorem State.advance_phase (s : State) : (s.advance).phase = s.phase := rfl
@[simp] theorem State.advance_cyc (s : State) : (s.advance).cyc = s.cyc := rfl
@[simp] theorem State.advance_plat (s : State) : (s.advance).plat = s.plat := rfl
@[simp] theorem State.advance_cfg (s : State) : (s.advance).cfg = s.cfg := rfl
@[simp] theorem State.advance_reported (s : State) : (s.advance).reported = s.reported := rfl
@[simp] theorem State.advance_bus (s : State) : (s.advance).bus = s.bus := rfl
@[simp] theorem State.advance_draws (s : State) : (s.advance).draws = s.draws := rfl
@[simp] theorem State.advance_mask (s : State) (q : Addr) : (s.advance).mask q = s.mask q := rfl
@[simp] theorem State.advance_kindAt (s : State) (q : Addr) : (s.advance).kindAt q = s.kindAt q := rfl

/-! ### jump -/

@[simp] theorem State.jump_a (s : State) (t : Addr) : (s.jump t).a = s.a := rfl
@[simp] theorem State.jump_x (s : State) (t : Addr) : (s.jump t).x = s.x := rfl
@[simp] theorem State.jump_y (s : State) (t : Addr) : (s.jump t).y = s.y := rfl
@[simp] theorem State.jump_sp (s : State) (t : Addr) : (s.jump t).sp = s.sp := rfl
@[simp] theorem State.jump_p (s : State) (t : Addr) : (s.jump t).p = s.p := rfl
@[simp] theorem State.jump_pc (s : State) (t : Addr) : (s.jump t).pc = s.mask t := rfl
@[simp] theorem State.jump_irqLine (s : State) (t : Addr) : (s.jump t).irqLine = s.irqLine := rfl
@[simp] theorem State.jump_nmiLine (s : State) (t : Addr) : (s.jump t).nmiLine = s.nmiLine := rfl
@[simp] theorem State.jump_resetLine (s : State) (t : Addr) : (s.jump t).resetLine = s.resetLine := rfl
@[simp] theorem State.jump_nmiPending (s : State) (t : Addr) : (s.jump t).nmiPending = s.nmiPending := rfl
@[simp] theorem State.jump_phase (s : State) (t : Addr) : (s.jump t).phase = s.phase := rfl
@[simp] theorem State.jump_cyc (s : State) (t : Addr) : (s.jump t).cyc = s.cyc := rfl
@[simp] theorem State.jump_plat (s : State) (t : Addr) : (s.jump t).plat = s.plat := rfl
@[simp] theorem State.jump_cfg (s : State) (t : Addr) : (s.jump t).cfg = s.cfg := rfl
@[simp] theorem State.jump_reported (s : State) (t : Addr) : (s.jump t).reported = s.reported := rfl
@[simp] theorem State.jump_bus (s : State) (t : Addr) : (s.jump t).bus = s.bus := rfl
@[simp] theorem State.jump_draws (s : State) (t : Addr) : (s.jump t).draws = s.draws := rfl
@[simp] theorem State.jump_mask (s : State) (t : Addr) (q : Addr) : (s.jump t).mask q = s.mask q := rfl
@[simp] theorem State.jump_kindAt (s : State) (t : Addr) (q : Addr) : (s.jump t).kindAt q = s.kindAt q := rfl

/-! ### loadA -/

@[simp] theorem State.loadA_a (s : State) (v : Byte) : (s.loadA v).a = v := rfl
@[simp] theorem State.loadA_x (s : State) (v : Byte) : (s.loadA v).x = s.x := rfl
@[simp] theorem State.loadA_y (s : State) (v : Byte) : (s.loadA v).y = s.y := rfl
@[simp] theorem State.loadA_sp (s : State) (v : Byte) : (s.loadA v).sp = s.sp := rfl
@[simp] theorem State.loadA_p (s : State) (v : Byte) : (s.loadA v).p = setNZ v s.p := rfl
@[simp] theorem State.loadA_pc (s : State) (v : Byte) : (s.loadA v).pc = s.pc := rfl
@[simp] theorem State.loadA_irqLine (s : State) (v : Byte) : (s.loadA v).irqLine = s.irqLine := rfl
@[simp] theorem State.loadA_nmiLine (s : State) (v : Byte) : (s.loadA v).nmiLine = s.nmiLine := rfl
@[simp] theorem State.loadA_resetLine (s : State) (v : Byte) : (s.loadA v).resetLine = s.resetLine := rfl
@[simp] theorem State.loadA_nmiPending (s : State) (v : Byte) : (s.loadA v).nmiPending = s.nmiPending := rfl
@[simp] theorem State.loadA_phase (s : State) (v : Byte) : (s.loadA v).phase = s.phase := rfl
@[simp] theorem State.loadA_cyc (s : State) (v : Byte) : (s.loadA v).cyc = s.cyc := rfl
@[simp] theorem State.loadA_plat (s : State) (v : Byte) : (s.loadA v).plat = s.plat := rfl
@[simp] theorem State.loadA_cfg (s : State) (v : Byte) : (s.loadA v).cfg = s.cfg := rfl
@[simp] theorem State.loadA_reported (s : State) (v : Byte) : (s.loadA v).reported = s.reported := rfl
@[simp] theorem State.loadA_bus (s : State) (v : Byte) : (s.loadA v).bus = s.bus := rfl
@[simp] theorem State.loadA_draws (s : State) (v : Byte) : (s.loadA v).draws = s.draws := rfl
@[simp] theorem State.loadA_mask (s : State) (v : Byte) (q : Addr) : (s.loadA v).mask q = s.mask q := rfl
@[simp] theorem State.loadA_kindAt (s : State) (v : Byte) (q : Addr) : (s.loadA v).kindAt q = s.kindAt q := rfl

/-! ### loadX -/

@[simp] theorem State.loadX_a (s : State) (v : Byte) : (s.loadX v).a = s.a := rfl
@[simp] theorem State.loadX_x (s : State) (v : Byte) : (s.loadX v).x = v := rfl
@[simp] theorem State.loadX_y (s : State) (v : Byte) : (s.loadX v).y = s.y := rfl
@[simp] theorem State.loadX_sp (s : State) (v : Byte) : (s.loadX v).sp = s.sp := rfl
@[simp] theorem State.loadX_p (s : State) (v : Byte) : (s.loadX v).p = setNZ v s.p := rfl
@[simp] theorem State.loadX_pc (s : State) (v : Byte) : (s.loadX v).pc = s.pc := rfl
@[simp] theorem State.loadX_irqLine (s : State) (v : Byte) : (s.loadX v).irqLine = s.irqLine := rfl
@[simp] theorem State.loadX_nmiLine (s : State) (v : Byte) : (s.loadX v).nmiLine = s.nmiLine := rfl
@[simp] theorem State.loadX_resetLine (s : State) (v : Byte) : (s.loadX v).resetLine = s.resetLine := rfl
@[simp] theorem State.loadX_nmiPending (s : State) (v : Byte) : (s.loadX v).nmiPending = s.nmiPending := rfl
@[simp] theorem State.loadX_phase (s : State) (v : Byte) : (s.loadX v).phase = s.phase := rfl
@[simp] theorem State.loadX_cyc (s : State) (v : Byte) : (s.loadX v).cyc = s.cyc := rfl
@[simp] theorem State.loadX_plat (s : State) (v : Byte) : (s.loadX v).plat = s.plat := rfl
@[simp] theorem State.loadX_cfg (s : State) (v : Byte) : (s.loadX v).cfg = s.cfg := rfl
@[simp] theorem State.loadX_reported (s : State) (v : Byte) : (s.loadX v).reported = s.reported := rfl
@[simp] theorem State.loadX_bus (s : State) (v : Byte) : (s.loadX v).bus = s.bus := rfl
@[simp] theorem State.loadX_draws (s : State) (v : Byte) : (s.loadX v).draws = s.draws := rfl
@[simp] theorem State.loadX_mask (s : State) (v : Byte) (q : Addr) : (s.loadX v).mask q = s.mask q := rfl
@[simp] theorem State.loadX_kindAt (s : State) (v : Byte) (q : Addr) : (s.loadX v).kindAt q = s.kindAt q := rfl

/-! ### loadY -/

@[simp] theorem State.loadY_a (s : State) (v : Byte) : (s.loadY v).a = s.a := rfl
@[simp] theorem State.loadY_x (s : State) (v : Byte) : (s.loadY v).x = s.x := rfl
@[simp] theorem State.loadY_y (s : State) (v : Byte) : (s.loadY v).y = v := rfl
@[simp] theorem State.loadY_sp (s : State) (v : Byte) : (s.loadY v).sp = s.sp := rfl
@[simp] theorem State.loadY_p (s : State) (v : Byte) : (s.loadY v).p = setNZ v s.p := rfl
@[simp] theorem State.loadY_pc (s : State) (v : Byte) : (s.loadY v).pc = s.pc := rfl
@[simp] theorem State.loadY_irqLine (s : State) (v : Byte) : (s.loadY v).irqLine = s.irqLine := rfl
@[simp] theorem State.loadY_nmiLine (s : State) (v : Byte) : (s.loadY v).nmiLine = s.nmiLine := rfl
@[simp] theorem State.loadY_resetLine (s : State) (v : Byte) : (s.loadY v).resetLine = s.resetLine := rfl
@[simp] theorem State.loadY_nmiPending (s : State) (v : Byte) : (s.loadY v).nmiPending = s.nmiPending := rfl
@[simp] theorem State.loadY_phase (s : State) (v : Byte) : (s.loadY v).phase = s.phase := rfl
@[simp] theorem State.loadY_cyc (s : State) (v : Byte) : (s.loadY v).cyc = s.cyc := rfl
@[simp] theorem State.loadY_plat (s : State) (v : Byte) : (s.loadY v).plat = s.plat := rfl
@[simp] theorem State.loadY_cfg (s : State) (v : Byte) : (s.loadY v).cfg = s.cfg := rfl
@[simp] theorem State.loadY_reported (s : State) (v : Byte) : (s.loadY v).reported = s.reported := rfl
@[simp] theorem State.loadY_bus (s : State) (v : Byte) : (s.loadY v).bus = s.bus := rfl
@[simp] theorem State.loadY_draws (s : State) (v : Byte) : (s.loadY v).draws = s.draws := rfl
@[simp] theorem State.loadY_mask (s : State) (v : Byte) (q : Addr) : (s.loadY v).mask q = s.mask q := rfl
@[simp] theorem State.loadY_kindAt (s : State) (v : Byte) (q : Addr) : (s.loadY v).kindAt q = s.kindAt q := rfl

/-! ### putA -/

@[simp] theorem State.putA_a (s : State) (r : Byte × Flags) : (s.putA r).a = r.1 := rfl
@[simp] theorem State.putA_x (s : State) (r : Byte × Flags) : (s.putA r).x = s.x := rfl
@[simp] theorem State.putA_y (s : State) (r : Byte × Flags) : (s.putA r).y = s.y := rfl
@[simp] theorem State.putA_sp (s : State) (r : Byte × Flags) : (s.putA r).sp = s.sp := rfl
@[simp] theorem State.putA_p (s : State) (r : Byte × Flags) : (s.putA r).p = r.2 := rfl
@[simp] theorem State.putA_pc (s : State) (r : Byte × Flags) : (s.putA r).pc = s.pc := rfl
@[simp] theorem State.putA_irqLine (s : State) (r : Byte × Flags) : (s.putA r).irqLine = s.irqLine := rfl
@[simp] theorem State.putA_nmiLine (s : State) (r : Byte × Flags) : (s.putA r).nmiLine = s.nmiLine := rfl
@[simp] theorem State.putA_resetLine (s : State) (r : Byte × Flags) : (s.putA r).resetLine = s.resetLine := rfl
@[simp] theorem State.putA_nmiPending (s : State) (r : Byte × Flags) : (s.putA r).nmiPending = s.nmiPending := rfl
@[simp] theorem State.putA_phase (s : State) (r : Byte × Flags) : (s.putA r).phase = s.phase := rfl
@[simp] theorem State.putA_cyc (s : State) (r : Byte × Flags) : (s.putA r).cyc = s.cyc := rfl
@[simp] theorem State.putA_plat (s : State) (r : Byte × Flags) : (s.putA r).plat = s.plat := rfl
@[simp] theorem State.putA_cfg (s : State) (r : Byte × Flags) : (s.putA r).cfg = s.cfg := rfl
@[simp] theorem State.putA_reported (s : State) (r : Byte × Flags) : (s.putA r).reported = s.reported := rfl
@[simp] theorem State.putA_bus (s : State) (r : Byte × Flags) : (s.putA r).bus = s.bus := rfl
@[simp] theorem State.putA_draws (s : State) (r : Byte × Flags) : (s.putA r).draws = s.draws := rfl
@[simp] theorem State.putA_mask (s : State) (r : Byte × Flags) (q : Addr) : (s.putA r).mask q = s.mask q := rfl
@[simp] theorem State.putA_kindAt (s : State) (r : Byte × Flags) (q : Addr) : (s.putA r).kindAt q = s.kindAt q := rfl

/-! ### withP -/

@[simp] theorem State.withP_a (s : State) (p : Flags) : (s.withP p).a = s.a := rfl
@[simp] theorem State.withP_x (s : State) (p : Flags) : (s.withP p).x = s.x := rfl
@[simp] theorem State.withP_y (s : State) (p : Flags) : (s.withP p).y = s.y := rfl
@[simp] theorem State.withP_sp (s : State) (p : Flags) : (s.withP p).sp = s.sp := rfl
@[simp] theorem State.withP_p (s : State) (p : Flags) : (s.withP p).p = p := rfl
@[simp] theorem State.withP_pc (s : State) (p : Flags) : (s.withP p).pc = s.pc := rfl
@[simp] theorem State.withP_irqLine (s : State) (p : Flags) : (s.withP p).irqLine = s.irqLine := rfl
@[simp] theorem State.withP_nmiLine (s : State) (p : Flags) : (s.withP p).nmiLine = s.nmiLine := rfl
@[simp] theorem State.withP_resetLine (s : State) (p : Flags) : (s.withP p).resetLine = s.resetLine := rfl
@[simp] theorem State.withP_nmiPending (s : State) (p : Flags) : (s.withP p).nmiPending = s.nmiPending := rfl
@[simp] theorem State.withP_phase (s : State) (p : Flags) : (s.withP p).phase = s.phase := rfl
@[simp] theorem State.withP_cyc (s : State) (p : Flags) : (s.withP p).cyc = s.cyc := rfl
@[simp] theorem State.withP_plat (s : State) (p : Flags) : (s.withP p).plat = s.plat := rfl
@[simp] theorem State.withP_cfg (s : State) (p : Flags) : (s.withP p).cfg = s.cfg := rfl
@[simp] theorem State.withP_reported (s : State) (p : Flags) : (s.withP p).reported = s.reported := rfl
@[simp] theorem State.withP_bus (s : State) (p : Flags) : (s.withP p).bus = s.bus := rfl
@[simp] theorem State.withP_draws (s : State) (p : Flags) : (s.withP p).draws = s.draws := rfl
@[simp] theorem State.withP_mask (s : State) (p : Flags) (q : Addr) : (s.withP p).mask q = s.mask q := rfl
@[simp] theorem State.withP_kindAt (s : State) (p : Flags) (q : Addr) : (s.withP p).kindAt q = s.kindAt q := rfl

/-! ### withSp -/

@[simp] theorem State.withSp_a (s : State) (v : Byte) : (s.withSp v).a = s.a := rfl
@[simp] theorem State.withSp_x (s : State) (v : Byte) : (s.withSp v).x = s.x := rfl
@[simp] theorem State.withSp_y (s : State) (v : Byte) : (s.withSp v).y = s.y := rfl
@[simp] theorem State.withSp_sp (s : State) (v : Byte) : (s.withSp v).sp = v := rfl
@[simp] theorem State.withSp_p (s : State) (v : Byte) : (s.withSp v).p = s.p := rfl
@[simp] theorem State.withSp_pc (s : State) (v : Byte) : (s.withSp v).pc = s.pc := rfl
@[simp] theorem State.withSp_irqLine (s : State) (v : Byte) : (s.withSp v).irqLine = s.irqLine := rfl
@[simp] theorem State.withSp_nmiLine (s : State) (v : Byte) : (s.withSp v).nmiLine = s.nmiLine := rfl
@[simp] theorem State.withSp_resetLine (s : State) (v : Byte) : (s.withSp v).resetLine = s.resetLine := rfl
@[simp] theorem State.withSp_nmiPending (s : State) (v : Byte) : (s.withSp v).nmiPending = s.nmiPending := rfl
@[simp] theorem State.withSp_phase (s : State) (v : Byte) : (s.withSp v).phase = s.phase := rfl
@[simp] theorem State.withSp_cyc (s : State) (v : Byte) : (s.withSp v).cyc = s.cyc := rfl
@[simp] theorem State.withSp_plat (s : State) (v : Byte) : (s.withSp v).plat = s.plat := rfl
@[simp] theorem State.withSp_cfg (s : State) (v : Byte) : (s.withSp v).cfg = s.cfg := rfl
@[simp] theorem State.withSp_reported (s : State) (v : Byte) : (s.withSp v).reported = s.reported := rfl
@[simp] theorem State.withSp_bus (s : State) (v : Byte) : (s.withSp v).bus = s.bus := rfl
@[simp] theorem State.withSp_draws (s : State) (v : Byte) : (s.withSp v).draws = s.draws := rfl
@[simp] theorem State.withSp_mask (s : State) (v : Byte) (q : Addr) : (s.withSp v).mask q = s.mask q := rfl
@[simp] theorem State.withSp_kindAt (s : State) (v : Byte) (q : Addr) : (s.withSp v).kindAt q = s.kindAt q := rfl

/-! ### retire -/

@[simp] theorem State.retire_a (s : State) (n : Nat) : (s.retire n).a = s.a := rfl
@[simp] theorem State.retire_x (s : State) (n : Nat) : (s.retire n).x = s.x := rfl
@[simp] theorem State.retire_y (s : State) (n : Nat) : (s.retire n).y = s.y := rfl
@[simp] theorem State.retire_sp (s : State) (n : Nat) : (s.retire n).sp = s.sp := rfl
@[simp] theorem State.retire_p (s : State) (n : Nat) : (s.retire n).p = s.p := rfl
@[simp] theorem State.retire_pc (s : State) (n : Nat) : (s.retire n).pc = s.pc := rfl
@[simp] theorem State.retire_irqLine (s : State) (n : Nat) : (s.retire n).irqLine = s.irqLine := rfl
@[simp] theorem State.retire_nmiLine (s : State) (n : Nat) : (s.retire n).nmiLine = s.nmiLine := rfl
@[simp] theorem State.retire_resetLine (s : State) (n : Nat) : (s.retire n).resetLine = s.resetLine := rfl
@[simp] theorem State.retire_nmiPending (s : State) (n : Nat) : (s.retire n).nmiPending = s.nmiPending := rfl
@[simp] theorem State.retire_phase (s : State) (n : Nat) : (s.retire n).phase = .atCheck := rfl
@[simp] theorem State.retire_cyc (s : State) (n : Nat) : (s.retire n).cyc = 0 := rfl
@[simp] theorem State.retire_plat (s : State) (n : Nat) : (s.retire n).plat = s.plat := rfl
@[simp] theorem State.retire_cfg (s : State) (n : Nat) : (s.retire n).cfg = s.cfg := rfl
@[simp] theorem State.retire_reported (s : State) (n : Nat) : (s.retire n).reported = n := rfl
@[simp] theorem State.retire_bus (s : State) (n : Nat) : (s.retire n).bus = s.bus := rfl
@[simp] theorem State.retire_draws (s : State) (n : Nat) : (s.retire n).draws = s.draws := rfl
@[simp] theorem State.retire_mask (s : State) (n : Nat) (q : Addr) : (s.retire n).mask q = s.mask q := rfl
@[simp] theorem State.retire_kindAt (s : State) (n : Nat) (q : Addr) : (s.retire n).kindAt q = s.kindAt q := rfl

/-! ### What the mask, the cell kinds and `NextPC` depend on -/

theorem State.mask_congr {s t : State} (h : t.cfg = s.cfg) (q : Addr) : t.mask q = s.mask q := by
  simp only [State.mask, h]

theorem State.kindAt_congr {s t : State} (h : t.plat = s.plat) (q : Addr) : t.kindAt q = s.kindAt q := by
  simp only [State.kindAt, h]

theorem State.nextPc_congr {s t : State} (hc : t.cfg = s.cfg) (hp : t.pc = s.pc) (n : Nat) : t.nextPc n = s.nextPc n := by
  simp only [State.nextPc, State.mask, hc, hp]

end Sys2Proof.Machine
end

