-- ==== Sys2Proof/Laws/Ops.lean ====
section
/-! SUPPORT. The shared operations: what each leaves of each field, and one lemma that says everything it does. -/

namespace Sys2Proof.Machine

/-! ## What each operation leaves alone -/

/-! ### busRead -/

@[simp] theorem busRead_a (k : ReadKind) (w : Addr) (s : State) : ((busRead k w s).2).a = s.a := rfl
@[simp] theorem busRead_x (k : ReadKind) (w : Addr) (s : State) : ((busRead k w s).2).x = s.x := rfl
@[simp] theorem busRead_y (k : ReadKind) (w : Addr) (s : State) : ((busRead k w s).2).y = s.y := rfl
@[simp] theorem busRead_sp (k : ReadKind) (w : Addr) (s : State) : ((busRead k w s).2).sp = s.sp := rfl
@[simp] theorem busRead_p (k : ReadKind) (w : Addr) (s : State) : ((busRead k w s).2).p = s.p := rfl
@[simp] theorem busRead_pc (k : ReadKind) (w : Addr) (s : State) : ((busRead k w s).2).pc = s.pc := rfl
@[simp] theorem busRead_irqLine (k : ReadKind) (w : Addr) (s : State) : ((busRead k w s).2).irqLine = s.irqLine := rfl
@[simp] theorem busRead_nmiLine (k : ReadKind) (w : Addr) (s : State) : ((busRead k w s).2).nmiLine = s.nmiLine := rfl
@[simp] theorem busRead_resetLine (k : ReadKind) (w : Addr) (s : State) : ((busRead k w s).2).resetLine = s.resetLine := rfl
@[simp] theorem busRead_nmiPending (k : ReadKind) (w : Addr) (s : State) : ((busRead k w s).2).nmiPending = s.nmiPending := rfl
@[simp] theorem busRead_phase (k : ReadKind) (w : Addr) (s : State) : ((busRead k w s).2).phase = s.phase := rfl
@[simp] theorem busRead_cyc (k : ReadKind) (w : Addr) (s : State) : ((busRead k w s).2).cyc = s.cyc := rfl
@[simp] theorem busRead_cfg (k : ReadKind) (w : Addr) (s : State) : ((busRead k w s).2).cfg = s.cfg := rfl
@[simp] theorem busRead_reported (k : ReadKind) (w : Addr) (s : State) : ((busRead k w s).2).reported = s.reported := rfl
@[simp] theorem busRead_draws (k : ReadKind) (w : Addr) (s : State) : ((busRead k w s).2).draws = s.draws := rfl
@[simp] theorem busRead_mask (k : ReadKind) (w : Addr) (s : State) (q : Addr) : ((busRead k w s).2).mask q = s.mask q := rfl

/-! ### memRead -/

@[simp] theorem memRead_a (w : Addr) (s : State) : ((memRead w s).2).a = s.a := rfl
@[simp] theorem memRead_x (w : Addr) (s : State) : ((memRead w s).2).x = s.x := rfl
@[simp] theorem memRead_y (w : Addr) (s : State) : ((memRead w s).2).y = s.y := rfl
@[simp] theorem memRead_sp (w : Addr) (s : State) : ((memRead w s).2).sp = s.sp := rfl
@[simp] theorem memRead_p (w : Addr) (s : State) : ((memRead w s).2).p = s.p := rfl
@[simp] theorem memRead_pc (w : Addr) (s : State) : ((memRead w s).2).pc = s.pc := rfl
@[simp] theorem memRead_irqLine (w : Addr) (s : State) : ((memRead w s).2).irqLine = s.irqLine := rfl
@[simp] theorem memRead_nmiLine (w : Addr) (s : State) : ((memRead w s).2).nmiLine = s.nmiLine := rfl
@[simp] theorem memRead_resetLine (w : Addr) (s : State) : ((memRead w s).2).resetLine = s.resetLine := rfl
@[simp] theorem memRead_nmiPending (w : Addr) (s : State) : ((memRead w s).2).nmiPending = s.nmiPending := rfl
@[simp] theorem memRead_phase (w : Addr) (s : State) : ((memRead w s).2).phase = s.phase := rfl
@[simp] theorem memRead_cyc (w : Addr) (s : State) : ((memRead w s).2).cyc = s.cyc := rfl
@[simp] theorem memRead_cfg (w : Addr) (s : State) : ((memRead w s).2).cfg = s.cfg := rfl
@[simp] theorem memRead_reported (w : Addr) (s : State) : ((memRead w s).2).reported = s.reported := rfl
@[simp] theorem memRead_draws (w : Addr) (s : State) : ((memRead w s).2).draws = s.draws := rfl
@[simp] theorem memRead_mask (w : Addr) (s : State) (q : Addr) : ((memRead w s).2).mask q = s.mask q := rfl

/-! ### busWrite -/

@[simp] theorem busWrite_a (w : Addr) (v : Byte) (s : State) : (busWrite w v s).a = s.a := rfl
@[simp] theorem busWrite_x (w : Addr) (v : Byte) (s : State) : (busWrite w v s).x = s.x := rfl
@[simp] theorem busWrite_y (w : Addr) (v : Byte) (s : State) : (busWrite w v s).y = s.y := rfl
@[simp] theorem busWrite_sp (w : Addr) (v : Byte) (s : State) : (busWrite w v s).sp = s.sp := rfl
@[simp] theorem busWrite_p (w : Addr) (v : Byte) (s : State) : (busWrite w v s).p = s.p := rfl
@[simp] theorem busWrite_pc (w : Addr) (v : Byte) (s : State) : (busWrite w v s).pc = s.pc := rfl
@[simp] theorem busWrite_irqLine (w : Addr) (v : Byte) (s : State) : (busWrite w v s).irqLine = s.irqLine := rfl
@[simp] theorem busWrite_nmiLine (w : Addr) (v : Byte) (s : State) : (busWrite w v s).nmiLine = s.nmiLine := rfl
@[simp] theorem busWrite_resetLine (w : Addr) (v : Byte) (s : State) : (busWrite w v s).resetLine = s.resetLine := rfl
@[simp] theorem busWrite_nmiPending (w : Addr) (v : Byte) (s : State) : (busWrite w v s).nmiPending = s.nmiPending := rfl
@[simp] theorem busWrite_phase (w : Addr) (v : Byte) (s : State) : (busWrite w v s).phase = s.phase := rfl
@[simp] theorem busWrite_cyc (w : Addr) (v : Byte) (s : State) : (busWrite w v s).cyc = s.cyc := rfl
@[simp] theorem busWrite_cfg (w : Addr) (v : Byte) (s : State) : (busWrite w v s).cfg = s.cfg := rfl
@[simp] theorem busWrite_reported (w : Addr) (v : Byte) (s : State) : (busWrite w v s).reported = s.reported := rfl
@[simp] theorem busWrite_draws (w : Addr) (v : Byte) (s : State) : (busWrite w v s).draws = s.draws := rfl
@[simp] theorem busWrite_mask (w : Addr) (v : Byte) (s : State) (q : Addr) : (busWrite w v s).mask q = s.mask q := rfl

/-! ### memWrite -/

@[simp] theorem memWrite_a (w : Addr) (v : Byte) (s : State) : (memWrite w v s).a = s.a := rfl
@[simp] theorem memWrite_x (w : Addr) (v : Byte) (s : State) : (memWrite w v s).x = s.x := rfl
@[simp] theorem memWrite_y (w : Addr) (v : Byte) (s : State) : (memWrite w v s).y = s.y := rfl
@[simp] theorem memWrite_sp (w : Addr) (v : Byte) (s : State) : (memWrite w v s).sp = s.sp := rfl
@[simp] theorem memWrite_p (w : Addr) (v : Byte) (s : State) : (memWrite w v s).p = s.p := rfl
@[simp] theorem memWrite_pc (w : Addr) (v : Byte) (s : State) : (memWrite w v s).pc = s.pc := rfl
@[simp] theorem memWrite_irqLine (w : Addr) (v : Byte) (s : State) : (memWrite w v s).irqLine = s.irqLine := rfl
@[simp] theorem memWrite_nmiLine (w : Addr) (v : Byte) (s : State) : (memWrite w v s).nmiLine = s.nmiLine := rfl
@[simp] theorem memWrite_resetLine (w : Addr) (v : Byte) (s : State) : (memWrite w v s).resetLine = s.resetLine := rfl
@[simp] theorem memWrite_nmiPending (w : Addr) (v : Byte) (s : State) : (memWrite w v s).nmiPending = s.nmiPending := rfl
@[simp] theorem memWrite_phase (w : Addr) (v : Byte) (s : State) : (memWrite w v s).phase = s.phase := rfl
@[simp] theorem memWrite_cyc (w : Addr) (v : Byte) (s : State) : (memWrite w v s).cyc = s.cyc := rfl
@[simp] theorem memWrite_cfg (w : Addr) (v : Byte) (s : State) : (memWrite w v s).cfg = s.cfg := rfl
@[simp] theorem memWrite_reported (w : Addr) (v : Byte) (s : State) : (memWrite w v s).reported = s.reported := rfl
@[simp] theorem memWrite_draws (w : Addr) (v : Byte) (s : State) : (memWrite w v s).draws = s.draws := rfl
@[simp] theorem memWrite_mask (w : Addr) (v : Byte) (s : State) (q : Addr) : (memWrite w v s).mask q = s.mask q := rfl

/-! ### fetchOperand -/

@[simp] theorem fetchOperand_a (s : State) : ((fetchOperand s).2).a = s.a := rfl
@[simp] theorem fetchOperand_x (s : State) : ((fetchOperand s).2).x = s.x := rfl
@[simp] theorem fetchOperand_y (s : State) : ((fetchOperand s).2).y = s.y := rfl
@[simp] theorem fetchOperand_sp (s : State) : ((fetchOperand s).2).sp = s.sp := rfl
@[simp] theorem fetchOperand_p (s : State) : ((fetchOperand s).2).p = s.p := rfl
@[simp] theorem fetchOperand_pc (s : State) : ((fetchOperand s).2).pc = s.nextPc 1 := rfl
@[simp] theorem fetchOperand_irqLine (s : State) : ((fetchOperand s).2).irqLine = s.irqLine := rfl
@[simp] theorem fetchOperand_nmiLine (s : State) : ((fetchOperand s).2).nmiLine = s.nmiLine := rfl
@[simp] theorem fetchOperand_resetLine (s : State) : ((fetchOperand s).2).resetLine = s.resetLine := rfl
@[simp] theorem fetchOperand_nmiPending (s : State) : ((fetchOperand s).2).nmiPending = s.nmiPending := rfl
@[simp] theorem fetchOperand_phase (s : State) : ((fetchOperand s).2).phase = s.phase := rfl
@[simp] theorem fetchOperand_cyc (s : State) : ((fetchOperand s).2).cyc = s.cyc := rfl
@[simp] theorem fetchOperand_cfg (s : State) : ((fetchOperand s).2).cfg = s.cfg := rfl
@[simp] theorem fetchOperand_reported (s : State) : ((fetchOperand s).2).reported = s.reported := rfl
@[simp] theorem fetchOperand_draws (s : State) : ((fetchOperand s).2).draws = s.draws := rfl
@[simp] theorem fetchOperand_mask (s : State) (q : Addr) : ((fetchOperand s).2).mask q = s.mask q := rfl

/-! ### push -/

@[simp] theorem push_a (v : Byte) (s : State) : (push v s).a = s.a := rfl
@[simp] theorem push_x (v : Byte) (s : State) : (push v s).x = s.x := rfl
@[simp] theorem push_y (v : Byte) (s : State) : (push v s).y = s.y := rfl
@[simp] theorem push_sp (v : Byte) (s : State) : (push v s).sp = s.sp - 1#8 := rfl
@[simp] theorem push_p (v : Byte) (s : State) : (push v s).p = s.p := rfl
@[simp] theorem push_pc (v : Byte) (s : State) : (push v s).pc = s.pc := rfl
@[simp] theorem push_irqLine (v : Byte) (s : State) : (push v s).irqLine = s.irqLine := rfl
@[simp] theorem push_nmiLine (v : Byte) (s : State) : (push v s).nmiLine = s.nmiLine := rfl
@[simp] theorem push_resetLine (v : Byte) (s : State) : (push v s).resetLine = s.resetLine := rfl
@[simp] theorem push_nmiPending (v : Byte) (s : State) : (push v s).nmiPending = s.nmiPending := rfl
@[simp] theorem push_phase (v : Byte) (s : State) : (push v s).phase = s.phase := rfl
@[simp] theorem push_cyc (v : Byte) (s : State) : (push v s).cyc = s.cyc := rfl
@[simp] theorem push_cfg (v : Byte) (s : State) : (push v s).cfg = s.cfg := rfl
@[simp] theorem push_reported (v : Byte) (s : State) : (push v s).reported = s.reported := rfl
@[simp] theorem push_draws (v : Byte) (s : State) : (push v s).draws = s.draws := rfl
@[simp] theorem push_mask (v : Byte) (s : State) (q : Addr) : (push v s).mask q = s.mask q := rfl

/-! ### pull -/

@[simp] theorem pull_a (s : State) : ((pull s).2).a = s.a := rfl
@[simp] theorem pull_x (s : State) : ((pull s).2).x = s.x := rfl
@[simp] theorem pull_y (s : State) : ((pull s).2).y = s.y := rfl
@[simp] theorem pull_sp (s : State) : ((pull s).2).sp = s.sp + 1#8 := rfl
@[simp] theorem pull_p (s : State) : ((pull s).2).p = s.p := rfl
@[simp] theorem pull_pc (s : State) : ((pull s).2).pc = s.pc := rfl
@[simp] theorem pull_irqLine (s : State) : ((pull s).2).irqLine = s.irqLine := rfl
@[simp] theorem pull_nmiLine (s : State) : ((pull s).2).nmiLine = s.nmiLine := rfl
@[simp] theorem pull_resetLine (s : State) : ((pull s).2).resetLine = s.resetLine := rfl
@[simp] theorem pull_nmiPending (s : State) : ((pull s).2).nmiPending = s.nmiPending := rfl
@[simp] theorem pull_phase (s : State) : ((pull s).2).phase = s.phase := rfl
@[simp] theorem pull_cyc (s : State) : ((pull s).2).cyc = s.cyc := rfl
@[simp] theorem pull_cfg (s : State) : ((pull s).2).cfg = s.cfg := rfl
@[simp] theorem pull_reported (s : State) : ((pull s).2).reported = s.reported := rfl
@[simp] theorem pull_draws (s : State) : ((pull s).2).draws = s.draws := rfl
@[simp] theorem pull_mask (s : State) (q : Addr) : ((pull s).2).mask q = s.mask q := rfl

/-! ### pushWord -/

@[simp] theorem pushWord_a (w : Addr) (s : State) : (pushWord w s).a = s.a := rfl
@[simp] theorem pushWord_x (w : Addr) (s : State) : (pushWord w s).x = s.x := rfl
@[simp] theorem pushWord_y (w : Addr) (s : State) : (pushWord w s).y = s.y := rfl
@[simp] theorem pushWord_sp (w : Addr) (s : State) : (pushWord w s).sp = s.sp - 1#8 - 1#8 := rfl
@[simp] theorem pushWord_p (w : Addr) (s : State) : (pushWord w s).p = s.p := rfl
@[simp] theorem pushWord_pc (w : Addr) (s : State) : (pushWord w s).pc = s.pc := rfl
@[simp] theorem pushWord_irqLine (w : Addr) (s : State) : (pushWord w s).irqLine = s.irqLine := rfl
@[simp] theorem pushWord_nmiLine (w : Addr) (s : State) : (pushWord w s).nmiLine = s.nmiLine := rfl
@[simp] theorem pushWord_resetLine (w : Addr) (s : State) : (pushWord w s).resetLine = s.resetLine := rfl
@[simp] theorem pushWord_nmiPending (w : Addr) (s : State) : (pushWord w s).nmiPending = s.nmiPending := rfl
@[simp] theorem pushWord_phase (w : Addr) (s : State) : (pushWord w s).phase = s.phase := rfl
@[simp] theorem pushWord_cyc (w : Addr) (s : State) : (pushWord w s).cyc = s.cyc := rfl
@[simp] theorem pushWord_cfg (w : Addr) (s : State) : (pushWord w s).cfg = s.cfg := rfl
@[simp] theorem pushWord_reported (w : Addr) (s : State) : (pushWord w s).reported = s.reported := rfl
@[simp] theorem pushWord_draws (w : Addr) (s : State) : (pushWord w s).draws = s.draws := rfl
@[simp] theorem pushWord_mask (w : Addr) (s : State) (q : Addr) : (pushWord w s).mask q = s.mask q := rfl

/-! ### pullWord -/

@[simp] theorem pullWord_a (s : State) : ((pullWord s).2).a = s.a := rfl
@[simp] theorem pullWord_x (s : State) : ((pullWord s).2).x = s.x := rfl
@[simp] theorem pullWord_y (s : State) : ((pullWord s).2).y = s.y := rfl
@[simp] theorem pullWord_sp (s : State) : ((pullWord s).2).sp = s.sp + 1#8 + 1#8 := rfl
@[simp] theorem pullWord_p (s : State) : ((pullWord s).2).p = s.p := rfl
@[simp] theorem pullWord_pc (s : State) : ((pullWord s).2).pc = s.pc := rfl
@[simp] theorem pullWord_irqLine (s : State) : ((pullWord s).2).irqLine = s.irqLine := rfl
@[simp] theorem pullWord_nmiLine (s : State) : ((pullWord s).2).nmiLine = s.nmiLine := rfl
@[simp] theorem pullWord_resetLine (s : State) : ((pullWord s).2).resetLine = s.resetLine := rfl
@[simp] theorem pullWord_nmiPending (s : State) : ((pullWord s).2).nmiPending = s.nmiPending := rfl
@[simp] theorem pullWord_phase (s : State) : ((pullWord s).2).phase = s.phase := rfl
@[simp] theorem pullWord_cyc (s : State) : ((pullWord s).2).cyc = s.cyc := rfl
@[simp] theorem pullWord_cfg (s : State) : ((pullWord s).2).cfg = s.cfg := rfl
@[simp] theorem pullWord_reported (s : State) : ((pullWord s).2).reported = s.reported := rfl
@[simp] theorem pullWord_draws (s : State) : ((pullWord s).2).draws = s.draws := rfl
@[simp] theorem pullWord_mask (s : State) (q : Addr) : ((pullWord s).2).mask q = s.mask q := rfl

/-! ### readVectorWord -/

@[simp] theorem readVectorWord_a (w : Addr) (s : State) : ((readVectorWord w s).2).a = s.a := rfl
@[simp] theorem readVectorWord_x (w : Addr) (s : State) : ((readVectorWord w s).2).x = s.x := rfl
@[simp] theorem readVectorWord_y (w : Addr) (s : State) : ((readVectorWord w s).2).y = s.y := rfl
@[simp] theorem readVectorWord_sp (w : Addr) (s : State) : ((readVectorWord w s).2).sp = s.sp := rfl
@[simp] theorem readVectorWord_p (w : Addr) (s : State) : ((readVectorWord w s).2).p = s.p := rfl
@[simp] theorem readVectorWord_pc (w : Addr) (s : State) : ((readVectorWord w s).2).pc = s.pc := rfl
@[simp] theorem readVectorWord_irqLine (w : Addr) (s : State) : ((readVectorWord w s).2).irqLine = s.irqLine := rfl
@[simp] theorem readVectorWord_nmiLine (w : Addr) (s : State) : ((readVectorWord w s).2).nmiLine = s.nmiLine := rfl
@[simp] theorem readVectorWord_resetLine (w : Addr) (s : State) : ((readVectorWord w s).2).resetLine = s.resetLine := rfl
@[simp] theorem readVectorWord_nmiPending (w : Addr) (s : State) : ((readVectorWord w s).2).nmiPending = s.nmiPending := rfl
@[simp] theorem readVectorWord_phase (w : Addr) (s : State) : ((readVectorWord w s).2).phase = s.phase := rfl
@[simp] theorem readVectorWord_cyc (w : Addr) (s : State) : ((readVectorWord w s).2).cyc = s.cyc := rfl
@[simp] theorem readVectorWord_cfg (w : Addr) (s : State) : ((readVectorWord w s).2).cfg = s.cfg := rfl
@[simp] theorem readVectorWord_reported (w : Addr) (s : State) : ((readVectorWord w s).2).reported = s.reported := rfl
@[simp] theorem readVectorWord_draws (w : Addr) (s : State) : ((readVectorWord w s).2).draws = s.draws := rfl
@[simp] theorem readVectorWord_mask (w : Addr) (s : State) (q : Addr) : ((readVectorWord w s).2).mask q = s.mask q := rfl

/-! ### raiseInterrupt -/

@[simp] theorem raiseInterrupt_a (k : InterruptKind) (s : State) : (raiseInterrupt k s).a = s.a := by
  simp [raiseInterrupt]
@[simp] theorem raiseInterrupt_x (k : InterruptKind) (s : State) : (raiseInterrupt k s).x = s.x := by
  simp [raiseInterrupt]
@[simp] theorem raiseInterrupt_y (k : InterruptKind) (s : State) : (raiseInterrupt k s).y = s.y := by
  simp [raiseInterrupt]
@[simp] theorem raiseInterrupt_sp (k : InterruptKind) (s : State) : (raiseInterrupt k s).sp = s.sp - 1#8 - 1#8 - 1#8 := by
  simp [raiseInterrupt]
@[simp] theorem raiseInterrupt_p (k : InterruptKind) (s : State) : (raiseInterrupt k s).p = { s.p with i := true } := by
  simp [raiseInterrupt]
@[simp] theorem raiseInterrupt_irqLine (k : InterruptKind) (s : State) : (raiseInterrupt k s).irqLine = s.irqLine := by
  simp [raiseInterrupt]
@[simp] theorem raiseInterrupt_nmiLine (k : InterruptKind) (s : State) : (raiseInterrupt k s).nmiLine = s.nmiLine := by
  simp [raiseInterrupt]
@[simp] theorem raiseInterrupt_resetLine (k : InterruptKind) (s : State) : (raiseInterrupt k s).resetLine = s.resetLine := by
  simp [raiseInterrupt]
@[simp] theorem raiseInterrupt_nmiPending (k : InterruptKind) (s : State) : (raiseInterrupt k s).nmiPending = s.nmiPending := by
  simp [raiseInterrupt]
@[simp] theorem raiseInterrupt_phase (k : InterruptKind) (s : State) : (raiseInterrupt k s).phase = s.phase := by
  simp [raiseInterrupt]
@[simp] theorem raiseInterrupt_cyc (k : InterruptKind) (s : State) : (raiseInterrupt k s).cyc = s.cyc := by
  simp [raiseInterrupt]
@[simp] theorem raiseInterrupt_cfg (k : InterruptKind) (s : State) : (raiseInterrupt k s).cfg = s.cfg := by
  simp [raiseInterrupt]
@[simp] theorem raiseInterrupt_reported (k : InterruptKind) (s : State) : (raiseInterrupt k s).reported = s.reported := by
  simp [raiseInterrupt]
@[simp] theorem raiseInterrupt_draws (k : InterruptKind) (s : State) : (raiseInterrupt k s).draws = s.draws := by
  simp [raiseInterrupt]
@[simp] theorem raiseInterrupt_mask (k : InterruptKind) (s : State) (q : Addr) : (raiseInterrupt k s).mask q = s.mask q := by
  simp [raiseInterrupt]

/-! ### returnFromInterrupt -/

@[simp] theorem returnFromInterrupt_a (s : State) : (returnFromInterrupt s).a = s.a := by
  simp [returnFromInterrupt]
@[simp] theorem returnFromInterrupt_x (s : State) : (returnFromInterrupt s).x = s.x := by
  simp [returnFromInterrupt]
@[simp] theorem returnFromInterrupt_y (s : State) : (returnFromInterrupt s).y = s.y := by
  simp [returnFromInterrupt]
@[simp] theorem returnFromInterrupt_sp (s : State) : (returnFromInterrupt s).sp = s.sp + 1#8 + 1#8 + 1#8 := by
  simp [returnFromInterrupt]
@[simp] theorem returnFromInterrupt_p (s : State) : (returnFromInterrupt s).p = unpackP (pull s).1 := by
  simp [returnFromInterrupt]
@[simp] theorem returnFromInterrupt_irqLine (s : State) : (returnFromInterrupt s).irqLine = s.irqLine := by
  simp [returnFromInterrupt]
@[simp] theorem returnFromInterrupt_nmiLine (s : State) : (returnFromInterrupt s).nmiLine = s.nmiLine := by
  simp [returnFromInterrupt]
@[simp] theorem returnFromInterrupt_resetLine (s : State) : (returnFromInterrupt s).resetLine = s.resetLine := by
  simp [returnFromInterrupt]
@[simp] theorem returnFromInterrupt_nmiPending (s : State) : (returnFromInterrupt s).nmiPending = s.nmiPending := by
  simp [returnFromInterrupt]
@[simp] theorem returnFromInterrupt_phase (s : State) : (returnFromInterrupt s).phase = s.phase := by
  simp [returnFromInterrupt]
@[simp] theorem returnFromInterrupt_cyc (s : State) : (returnFromInterrupt s).cyc = s.cyc := by
  simp [returnFromInterrupt]
@[simp] theorem returnFromInterrupt_cfg (s : State) : (returnFromInterrupt s).cfg = s.cfg := by
  simp [returnFromInterrupt]
@[simp] theorem returnFromInterrupt_reported (s : State) : (returnFromInterrupt s).reported = s.reported := by
  simp [returnFromInterrupt]
@[simp] theorem returnFromInterrupt_draws (s : State) : (returnFromInterrupt s).draws = s.draws := by
  simp [returnFromInterrupt]
@[simp] theorem returnFromInterrupt_mask (s : State) (q : Addr) : (returnFromInterrupt s).mask q = s.mask q := by
  simp [returnFromInterrupt]

/-! ## What each operation does -/

/-- A read of a plain cell by any path but the opcode path (R43, R44): the byte of the program space, the platform
unchanged. -/
theorem busRead_plain {k : ReadKind} {w : Addr} {s : State} (hk : k ≠ .opcode) (h : s.kindAt (s.mask w) ≠ .device) :
    busRead k w s =
      (s.mem.read (s.mask w).toNat, { s with bus := s.bus ++ [.read k (s.mask w) (s.mem.read (s.mask w).toNat)] }) := by
  simp only [busRead, Platform.value_plain h hk, Platform.afterRead_plain h]

/-- A data read of a plain cell (R45). -/
theorem memRead_plain {w : Addr} {s : State} (h : s.kindAt (s.mask w) ≠ .device) :
    memRead w s =
      (s.mem.read (s.mask w).toNat,
        { s with bus := s.bus ++ [.read .data (s.mask w) (s.mem.read (s.mask w).toNat)] }) :=
  busRead_plain (by decide) h

/-- An operand fetch from a plain cell (R48). -/
theorem fetchOperand_plain {s : State} (h : s.kindAt (s.mask s.pc) ≠ .device) :
    fetchOperand s =
      (s.mem.read (s.mask s.pc).toNat,
        { s with
          pc := s.nextPc 1
          bus := s.bus ++ [.read .operand (s.mask s.pc) (s.mem.read (s.mask s.pc).toNat)] }) := by
  rw [fetchOperand, busRead_plain (by decide) h]
  rfl

/-- An opcode fetch from a plain cell (R47). -/
theorem fetchOpcode_plain {s : State} (h : s.kindAt (s.mask s.pc) ≠ .device) :
    fetchOpcode s =
      (opcodeByteAt s s.pc,
        { s with
          pc := s.nextPc 1
          bus := s.bus ++ [.read .opcode (s.mask s.pc) (opcodeByteAt s s.pc)] }) := by
  simp only [fetchOpcode, busRead, Platform.value_opcode h, Platform.afterRead_plain h, opcodeByteAt, byteAt]
  rfl

/-- What a store to a plain cell leaves of the program space elsewhere. -/
theorem busWrite_read_other {w : Addr} {v : Byte} {s : State} {a : Nat} (hp : s.kindAt (s.mask w) ≠ .device)
    (h : (s.mask w).toNat ≠ a) : (busWrite w v s).mem.read a = s.mem.read a :=
  Platform.afterWrite_read_other hp h

/-- A store to a RAM cell is read back (R43, R56). -/
theorem busWrite_read_same {w : Addr} {v : Byte} {s : State} (hm : s.mem.wf = true)
    (h : s.kindAt (s.mask w) = .ram) : (busWrite w v s).mem.read (s.mask w).toNat = v :=
  Platform.afterWrite_read_same hm h

/-- A store to a ROM cell leaves the program space. -/
theorem busWrite_mem_rom {w : Addr} {v : Byte} {s : State} (h : s.kindAt (s.mask w) = .rom) :
    (busWrite w v s).mem = s.mem :=
  Platform.afterWrite_mem_rom h

/-- A store to a plain cell leaves what the addresses are. -/
theorem busWrite_kindAt {w : Addr} {v : Byte} {s : State} (h : s.kindAt (s.mask w) ≠ .device) (q : Addr) :
    (busWrite w v s).kindAt q = s.kindAt q :=
  Platform.kindAt_congr (Platform.afterWrite_regions h) q

/-- A store to a plain cell leaves the opcode view, where the core has none. -/
theorem busWrite_opcodeView {w : Addr} {v : Byte} {s : State} (hv : s.cfg.hasOpcodeView = false)
    (h : s.kindAt (s.mask w) ≠ .device) : (busWrite w v s).opcodeView = s.opcodeView :=
  Platform.afterWrite_view hv h

/-! ## The platform keeps its canonical form -/

/-- The byte arrays of the platform are in canonical form and inside the address space. -/
def State.platOk (s : State) : Prop := s.plat.Ok s.cfg.addrWidth

theorem busRead_platOk {k : ReadKind} {w : Addr} {s : State} (h : s.platOk) : (busRead k w s).2.platOk :=
  Platform.afterRead_ok h _ _

theorem busWrite_platOk {w : Addr} {v : Byte} {s : State} (h : s.platOk) : (busWrite w v s).platOk :=
  Platform.afterWrite_ok h (maskTo_lt _ _) _

theorem memRead_platOk {w : Addr} {s : State} (h : s.platOk) : (memRead w s).2.platOk := busRead_platOk h

theorem fetchOpcode_platOk {s : State} (h : s.platOk) : (fetchOpcode s).2.platOk := busRead_platOk (k := .opcode) (w := s.pc) h

theorem fetchOperand_platOk {s : State} (h : s.platOk) : (fetchOperand s).2.platOk :=
  busRead_platOk (k := .operand) (w := s.pc) h

theorem push_platOk {v : Byte} {s : State} (h : s.platOk) : (push v s).platOk := busWrite_platOk (s := s) h

theorem pull_platOk {s : State} (h : s.platOk) : (pull s).2.platOk := busRead_platOk (s := s.withSp (s.sp + 1#8)) h

theorem pushWord_platOk {w : Addr} {s : State} (h : s.platOk) : (pushWord w s).platOk := push_platOk (push_platOk h)

theorem pullWord_platOk {s : State} (h : s.platOk) : (pullWord s).2.platOk := pull_platOk (pull_platOk h)

theorem readVectorWord_platOk {w : Addr} {s : State} (h : s.platOk) : (readVectorWord w s).2.platOk :=
  busRead_platOk (busRead_platOk h)

theorem raiseInterrupt_platOk {k : InterruptKind} {s : State} (h : s.platOk) : (raiseInterrupt k s).platOk := by
  have h1 := push_platOk (v := packP (breakBit k) s.p) (pushWord_platOk (w := s.pc) h)
  exact readVectorWord_platOk (w := vectorAddr k)
    (s := (push (packP (breakBit k) s.p) (pushWord s.pc s)).withP { s.p with i := true }) h1

theorem returnFromInterrupt_platOk {s : State} (h : s.platOk) : (returnFromInterrupt s).platOk :=
  pullWord_platOk (s := (pull s).2.withP (unpackP (pull s).1)) (pull_platOk h)

/-! ## The stack -/

/-- A push stores at the stack byte and steps the pointer down (R14). -/
theorem push_eq (v : Byte) (s : State) : push v s = (busWrite (stackAddr s.sp) v s).withSp (s.sp - 1#8) := rfl

/-- A pull from a plain cell (R15). -/
theorem pull_plain {s : State} (h : s.kindAt (s.mask (stackAddr (s.sp + 1#8))) ≠ .device) :
    pull s =
      (s.mem.read (s.mask (stackAddr (s.sp + 1#8))).toNat,
        { s with
          sp := s.sp + 1#8
          bus := s.bus ++ [.read .data (s.mask (stackAddr (s.sp + 1#8)))
            (s.mem.read (s.mask (stackAddr (s.sp + 1#8))).toNat)] }) := by
  have h' : (s.withSp (s.sp + 1#8)).kindAt ((s.withSp (s.sp + 1#8)).mask (stackAddr (s.sp + 1#8))) ≠ .device := h
  rw [pull, memRead_plain h']
  rfl

/-- The entry sequence in one line (R236): three pushes, I set, the vector read, PC loaded. -/
theorem raiseInterrupt_pc (k : InterruptKind) (s : State) :
    (raiseInterrupt k s).pc =
      s.mask (readVectorWord (vectorAddr k)
        ((push (packP (breakBit k) s.p) (pushWord s.pc s)).withP { s.p with i := true })).1 := by
  simp [raiseInterrupt]

theorem returnFromInterrupt_pc (s : State) :
    (returnFromInterrupt s).pc = s.mask (pullWord ((pull s).2.withP (unpackP (pull s).1))).1 := by
  simp [returnFromInterrupt]

/-! ## The status byte -/

@[simp] theorem unpackP_packP (b : Bool) (p : Flags) : unpackP (packP b p) = p := by
  obtain ⟨n, v, d, i, z, c⟩ := p
  revert b n v d i z c
  decide

theorem packP_bit5 (b : Bool) (p : Flags) : bit (packP b p) 5 = true := by
  obtain ⟨n, v, d, i, z, c⟩ := p
  revert b n v d i z c
  decide

theorem packP_bit4 (b : Bool) (p : Flags) : bit (packP b p) 4 = b := by
  obtain ⟨n, v, d, i, z, c⟩ := p
  revert b n v d i z c
  decide

theorem packP_unpackP (b : Bool) (v : Byte) :
    packP b (unpackP v) = (v &&& 0xCF#8) ||| (if b then 0x30#8 else 0x20#8) := by
  revert v b
  decide

end Sys2Proof.Machine
end

