-- ==== Sys2Proof/Laws/Fetch.lean ====
section
/-! SUPPORT. Masking and the program counter, fetching an instruction, and the undefined opcode bytes: what each leaves alone and
where `PC` goes. -/

namespace Sys2Proof.Machine

/-! ## The mask and the program counter -/

theorem mask_lt (s : State) (q : Addr) : (s.mask q).toNat < 2 ^ s.cfg.addrWidth := maskTo_lt _ _

@[simp] theorem mask_mask (s : State) (q : Addr) : s.mask (s.mask q) = s.mask q := maskTo_maskTo _ _

/-- Two steps of the program counter are one step of their sum (R12). -/
theorem maskTo_maskTo_add (w : Nat) (p q : Addr) : maskTo w (maskTo w p + q) = maskTo w (p + q) := by
  apply BitVec.eq_of_toNat_eq
  simp only [toNat_maskTo, BitVec.toNat_add]
  rcases Nat.lt_or_ge 16 w with h | h
  · have hp : p.toNat < 2 ^ w := lt_trans p.isLt (Nat.pow_lt_pow_right (by omega) h)
    rw [Nat.mod_eq_of_lt hp]
  · have hd : 2 ^ w ∣ 2 ^ 16 := Nat.pow_dvd_pow 2 h
    rw [Nat.mod_mod_of_dvd _ hd, Nat.mod_mod_of_dvd _ hd, Nat.mod_add_mod]

/-- `NextPC` of a state whose `PC` is `NextPC(m)` of another with the same width. -/
theorem nextPc_of_pc {s t : State} {m n : Nat} (hp : t.pc = s.nextPc m) (hc : t.cfg = s.cfg) :
    t.nextPc n = s.nextPc (m + n) := by
  simp only [State.nextPc, State.mask, hp, hc]
  rw [maskTo_maskTo_add]
  congr 1
  rw [BitVec.add_assoc, ← BitVec.ofNat_add]

/-- `NextPC(0)` of a program counter inside its width. -/
theorem nextPc_zero {s : State} (h : s.pc.toNat < 2 ^ s.cfg.addrWidth) : s.nextPc 0 = s.pc := by
  simp [State.nextPc, State.mask, maskTo_eq_self h]

/-! ## Fetching -/

@[simp] theorem beginStep_a (s : State) : (s.beginStep).a = s.a := rfl
@[simp] theorem beginStep_x (s : State) : (s.beginStep).x = s.x := rfl
@[simp] theorem beginStep_y (s : State) : (s.beginStep).y = s.y := rfl
@[simp] theorem beginStep_sp (s : State) : (s.beginStep).sp = s.sp := rfl
@[simp] theorem beginStep_p (s : State) : (s.beginStep).p = s.p := rfl
@[simp] theorem beginStep_pc (s : State) : (s.beginStep).pc = s.pc := rfl
@[simp] theorem beginStep_irqLine (s : State) : (s.beginStep).irqLine = s.irqLine := rfl
@[simp] theorem beginStep_nmiLine (s : State) : (s.beginStep).nmiLine = s.nmiLine := rfl
@[simp] theorem beginStep_resetLine (s : State) : (s.beginStep).resetLine = s.resetLine := rfl
@[simp] theorem beginStep_nmiPending (s : State) : (s.beginStep).nmiPending = s.nmiPending := rfl
@[simp] theorem beginStep_phase (s : State) : (s.beginStep).phase = s.phase := rfl
@[simp] theorem beginStep_cyc (s : State) : (s.beginStep).cyc = s.cyc := rfl
@[simp] theorem beginStep_plat (s : State) : (s.beginStep).plat = s.plat := rfl
@[simp] theorem beginStep_cfg (s : State) : (s.beginStep).cfg = s.cfg := rfl
@[simp] theorem beginStep_reported (s : State) : (s.beginStep).reported = s.reported := rfl
@[simp] theorem beginStep_bus (s : State) : (s.beginStep).bus = [] := rfl
@[simp] theorem beginStep_draws (s : State) : (s.beginStep).draws = s.draws := rfl
@[simp] theorem beginStep_mask (s : State) (q : Addr) : (s.beginStep).mask q = s.mask q := rfl
@[simp] theorem beginStep_kindAt (s : State) (q : Addr) : (s.beginStep).kindAt q = s.kindAt q := rfl

@[simp] theorem fetchOpcode_a (s : State) : ((fetchOpcode s).2).a = s.a := rfl
@[simp] theorem fetchOpcode_x (s : State) : ((fetchOpcode s).2).x = s.x := rfl
@[simp] theorem fetchOpcode_y (s : State) : ((fetchOpcode s).2).y = s.y := rfl
@[simp] theorem fetchOpcode_sp (s : State) : ((fetchOpcode s).2).sp = s.sp := rfl
@[simp] theorem fetchOpcode_p (s : State) : ((fetchOpcode s).2).p = s.p := rfl
@[simp] theorem fetchOpcode_pc (s : State) : ((fetchOpcode s).2).pc = s.nextPc 1 := rfl
@[simp] theorem fetchOpcode_irqLine (s : State) : ((fetchOpcode s).2).irqLine = s.irqLine := rfl
@[simp] theorem fetchOpcode_nmiLine (s : State) : ((fetchOpcode s).2).nmiLine = s.nmiLine := rfl
@[simp] theorem fetchOpcode_resetLine (s : State) : ((fetchOpcode s).2).resetLine = s.resetLine := rfl
@[simp] theorem fetchOpcode_nmiPending (s : State) : ((fetchOpcode s).2).nmiPending = s.nmiPending := rfl
@[simp] theorem fetchOpcode_phase (s : State) : ((fetchOpcode s).2).phase = s.phase := rfl
@[simp] theorem fetchOpcode_cyc (s : State) : ((fetchOpcode s).2).cyc = s.cyc := rfl
@[simp] theorem fetchOpcode_cfg (s : State) : ((fetchOpcode s).2).cfg = s.cfg := rfl
@[simp] theorem fetchOpcode_reported (s : State) : ((fetchOpcode s).2).reported = s.reported := rfl
@[simp] theorem fetchOpcode_draws (s : State) : ((fetchOpcode s).2).draws = s.draws := rfl
@[simp] theorem fetchOpcode_mask (s : State) (q : Addr) : ((fetchOpcode s).2).mask q = s.mask q := rfl

/-! The fetch of a whole instruction changes `PC`, the bus record and the platform alone. -/

/-- The state after a fetch: one, two or three bytes have been fetched. -/
theorem fetchInstr_state (s : State) :
    (fetchInstr s).2 = (fetchOpcode s).2 ∨ (fetchInstr s).2 = (fetchOperand (fetchOpcode s).2).2 ∨
      (fetchInstr s).2 = (fetchOperand (fetchOperand (fetchOpcode s).2).2).2 := by
  simp only [fetchInstr]
  split
  · exact .inl rfl
  · exact .inr (.inl rfl)
  · exact .inr (.inr rfl)
  · exact .inr (.inl rfl)

@[simp] theorem fetchInstr_a (s : State) : ((fetchInstr s).2).a = s.a := by
  obtain h | h | h := fetchInstr_state s <;> rw [h] <;> rfl
@[simp] theorem fetchInstr_x (s : State) : ((fetchInstr s).2).x = s.x := by
  obtain h | h | h := fetchInstr_state s <;> rw [h] <;> rfl
@[simp] theorem fetchInstr_y (s : State) : ((fetchInstr s).2).y = s.y := by
  obtain h | h | h := fetchInstr_state s <;> rw [h] <;> rfl
@[simp] theorem fetchInstr_sp (s : State) : ((fetchInstr s).2).sp = s.sp := by
  obtain h | h | h := fetchInstr_state s <;> rw [h] <;> rfl
@[simp] theorem fetchInstr_p (s : State) : ((fetchInstr s).2).p = s.p := by
  obtain h | h | h := fetchInstr_state s <;> rw [h] <;> rfl
@[simp] theorem fetchInstr_irqLine (s : State) : ((fetchInstr s).2).irqLine = s.irqLine := by
  obtain h | h | h := fetchInstr_state s <;> rw [h] <;> rfl
@[simp] theorem fetchInstr_nmiLine (s : State) : ((fetchInstr s).2).nmiLine = s.nmiLine := by
  obtain h | h | h := fetchInstr_state s <;> rw [h] <;> rfl
@[simp] theorem fetchInstr_resetLine (s : State) : ((fetchInstr s).2).resetLine = s.resetLine := by
  obtain h | h | h := fetchInstr_state s <;> rw [h] <;> rfl
@[simp] theorem fetchInstr_nmiPending (s : State) : ((fetchInstr s).2).nmiPending = s.nmiPending := by
  obtain h | h | h := fetchInstr_state s <;> rw [h] <;> rfl
@[simp] theorem fetchInstr_phase (s : State) : ((fetchInstr s).2).phase = s.phase := by
  obtain h | h | h := fetchInstr_state s <;> rw [h] <;> rfl
@[simp] theorem fetchInstr_cyc (s : State) : ((fetchInstr s).2).cyc = s.cyc := by
  obtain h | h | h := fetchInstr_state s <;> rw [h] <;> rfl
@[simp] theorem fetchInstr_cfg (s : State) : ((fetchInstr s).2).cfg = s.cfg := by
  obtain h | h | h := fetchInstr_state s <;> rw [h] <;> rfl
@[simp] theorem fetchInstr_reported (s : State) : ((fetchInstr s).2).reported = s.reported := by
  obtain h | h | h := fetchInstr_state s <;> rw [h] <;> rfl
@[simp] theorem fetchInstr_draws (s : State) : ((fetchInstr s).2).draws = s.draws := by
  obtain h | h | h := fetchInstr_state s <;> rw [h] <;> rfl
@[simp] theorem fetchInstr_mask (s : State) (q : Addr) : ((fetchInstr s).2).mask q = s.mask q := by
  obtain h | h | h := fetchInstr_state s <;> rw [h] <;> rfl

/-- `PC` after a fetch is inside its width (R16). -/
theorem fetchInstr_pc_lt (s : State) : (fetchInstr s).2.pc.toNat < 2 ^ s.cfg.addrWidth := by
  obtain h | h | h := fetchInstr_state s <;> rw [h] <;> exact mask_lt _ _

theorem fetchInstr_platOk {s : State} (h : s.platOk) : (fetchInstr s).2.platOk := by
  obtain e | e | e := fetchInstr_state s <;> rw [e]
  · exact fetchOpcode_platOk h
  · exact fetchOperand_platOk (fetchOpcode_platOk h)
  · exact fetchOperand_platOk (fetchOperand_platOk (fetchOpcode_platOk h))

/-! ## Undefined opcode bytes -/

@[simp] theorem skipOperands_a (k : Nat) (s : State) : (skipOperands k s).a = s.a := by
  induction k generalizing s with
  | zero => rfl
  | succ k ih => exact ih (fetchOperand s).2
@[simp] theorem skipOperands_x (k : Nat) (s : State) : (skipOperands k s).x = s.x := by
  induction k generalizing s with
  | zero => rfl
  | succ k ih => exact ih (fetchOperand s).2
@[simp] theorem skipOperands_y (k : Nat) (s : State) : (skipOperands k s).y = s.y := by
  induction k generalizing s with
  | zero => rfl
  | succ k ih => exact ih (fetchOperand s).2
@[simp] theorem skipOperands_sp (k : Nat) (s : State) : (skipOperands k s).sp = s.sp := by
  induction k generalizing s with
  | zero => rfl
  | succ k ih => exact ih (fetchOperand s).2
@[simp] theorem skipOperands_p (k : Nat) (s : State) : (skipOperands k s).p = s.p := by
  induction k generalizing s with
  | zero => rfl
  | succ k ih => exact ih (fetchOperand s).2
@[simp] theorem skipOperands_irqLine (k : Nat) (s : State) : (skipOperands k s).irqLine = s.irqLine := by
  induction k generalizing s with
  | zero => rfl
  | succ k ih => exact ih (fetchOperand s).2
@[simp] theorem skipOperands_nmiLine (k : Nat) (s : State) : (skipOperands k s).nmiLine = s.nmiLine := by
  induction k generalizing s with
  | zero => rfl
  | succ k ih => exact ih (fetchOperand s).2
@[simp] theorem skipOperands_resetLine (k : Nat) (s : State) : (skipOperands k s).resetLine = s.resetLine := by
  induction k generalizing s with
  | zero => rfl
  | succ k ih => exact ih (fetchOperand s).2
@[simp] theorem skipOperands_nmiPending (k : Nat) (s : State) : (skipOperands k s).nmiPending = s.nmiPending := by
  induction k generalizing s with
  | zero => rfl
  | succ k ih => exact ih (fetchOperand s).2
@[simp] theorem skipOperands_phase (k : Nat) (s : State) : (skipOperands k s).phase = s.phase := by
  induction k generalizing s with
  | zero => rfl
  | succ k ih => exact ih (fetchOperand s).2
@[simp] theorem skipOperands_cyc (k : Nat) (s : State) : (skipOperands k s).cyc = s.cyc := by
  induction k generalizing s with
  | zero => rfl
  | succ k ih => exact ih (fetchOperand s).2
@[simp] theorem skipOperands_cfg (k : Nat) (s : State) : (skipOperands k s).cfg = s.cfg := by
  induction k generalizing s with
  | zero => rfl
  | succ k ih => exact ih (fetchOperand s).2
@[simp] theorem skipOperands_reported (k : Nat) (s : State) : (skipOperands k s).reported = s.reported := by
  induction k generalizing s with
  | zero => rfl
  | succ k ih => exact ih (fetchOperand s).2
@[simp] theorem skipOperands_draws (k : Nat) (s : State) : (skipOperands k s).draws = s.draws := by
  induction k generalizing s with
  | zero => rfl
  | succ k ih => exact ih (fetchOperand s).2
@[simp] theorem skipOperands_mask (k : Nat) (s : State) (q : Addr) : (skipOperands k s).mask q = s.mask q := by
  induction k generalizing s with
  | zero => rfl
  | succ k ih => exact ih (fetchOperand s).2

/-- Skipping `k` operand bytes advances `PC` by `k` (R220). -/
theorem skipOperands_pc {s : State} (k : Nat) (h : s.pc.toNat < 2 ^ s.cfg.addrWidth) :
    (skipOperands k s).pc = s.nextPc k := by
  induction k generalizing s with
  | zero => exact (nextPc_zero h).symm
  | succ k ih =>
    rw [skipOperands, ih (mask_lt s _), nextPc_of_pc (s := s) (t := (fetchOperand s).2) (m := 1) rfl rfl, Nat.add_comm]

theorem skipOperands_platOk (k : Nat) {s : State} (h : s.platOk) : (skipOperands k s).platOk := by
  induction k generalizing s with
  | zero => exact h
  | succ k ih => exact ih (fetchOperand_platOk h)

/-- Everything an undefined opcode byte can do (R220): skip operand bytes and retire, or step back. -/
theorem execUndefined_next {op : Byte} {s t : State} (h : execUndefined op s = .next t) :
    (∃ rows len cycles, s.cfg.undefPolicy = .table rows ∧ rows.lookup op = some (.nop len cycles) ∧
      t = (skipOperands (len - 1) s).retire cycles) ∨
    (∃ rows, s.cfg.undefPolicy = .table rows ∧ rows.lookup op = some .jam ∧ t = jam s) := by
  unfold execUndefined at h
  split at h
  · cases h
  · next rows hr =>
    split at h
    · next len cycles hl => exact .inl ⟨rows, len, cycles, hr, hl, by cases h; rfl⟩
    · next hl => exact .inr ⟨rows, hr, hl, by cases h; rfl⟩
    · cases h
    · cases h

end Sys2Proof.Machine
end

