-- ==== Sys2Proof/Laws/Operands.lean ====
section
/-! SUPPORT. The addressing modes and the ways to use them: what each mode yields and leaves alone, and one equation for each
use of an operand. -/

namespace Sys2Proof.Machine

/-! ## The modes that read nothing -/

@[simp] theorem modeZp_st (b2 : Byte) (s : State) : (modeZp b2 s).st = s := rfl
@[simp] theorem modeZp_crossed (b2 : Byte) (s : State) : (modeZp b2 s).crossed = false := rfl
@[simp] theorem modeZpx_st (b2 : Byte) (s : State) : (modeZpx b2 s).st = s := rfl
@[simp] theorem modeZpx_crossed (b2 : Byte) (s : State) : (modeZpx b2 s).crossed = false := rfl
@[simp] theorem modeZpy_st (b2 : Byte) (s : State) : (modeZpy b2 s).st = s := rfl
@[simp] theorem modeZpy_crossed (b2 : Byte) (s : State) : (modeZpy b2 s).crossed = false := rfl
@[simp] theorem modeAbs_st (addr : Addr) (s : State) : (modeAbs addr s).st = s := rfl
@[simp] theorem modeAbs_crossed (addr : Addr) (s : State) : (modeAbs addr s).crossed = false := rfl
@[simp] theorem modeAbsx_st (addr : Addr) (s : State) : (modeAbsx addr s).st = s := rfl
@[simp] theorem modeAbsy_st (addr : Addr) (s : State) : (modeAbsy addr s).st = s := rfl

@[simp] theorem modeZp_ea (b2 : Byte) (s : State) : (modeZp b2 s).ea = zext16 b2 := rfl
@[simp] theorem modeZpx_ea (b2 : Byte) (s : State) : (modeZpx b2 s).ea = zext16 (b2 + s.x) := rfl
@[simp] theorem modeZpy_ea (b2 : Byte) (s : State) : (modeZpy b2 s).ea = zext16 (b2 + s.y) := rfl
@[simp] theorem modeAbs_ea (addr : Addr) (s : State) : (modeAbs addr s).ea = addr := rfl
@[simp] theorem modeAbsx_ea (addr : Addr) (s : State) : (modeAbsx addr s).ea = addr + zext16 s.x := rfl
@[simp] theorem modeAbsy_ea (addr : Addr) (s : State) : (modeAbsy addr s).ea = addr + zext16 s.y := rfl
@[simp] theorem modeIndx_crossed (b2 : Byte) (s : State) : (modeIndx b2 s).crossed = false := rfl

/-- A page is crossed exactly when the high bytes differ (R98, R100). -/
theorem indexed_crossed_iff (base : Addr) (idx : Byte) (s : State) :
    (indexed base idx s).crossed = true ↔ hiByte (indexed base idx s).ea ≠ hiByte base := by
  simp [indexed]

/-! ## The modes that read a pointer -/

/-! ### zeroPagePointer -/

@[simp] theorem zeroPagePointer_a (p : Byte) (s : State) : ((zeroPagePointer p s).2).a = s.a := rfl
@[simp] theorem zeroPagePointer_x (p : Byte) (s : State) : ((zeroPagePointer p s).2).x = s.x := rfl
@[simp] theorem zeroPagePointer_y (p : Byte) (s : State) : ((zeroPagePointer p s).2).y = s.y := rfl
@[simp] theorem zeroPagePointer_sp (p : Byte) (s : State) : ((zeroPagePointer p s).2).sp = s.sp := rfl
@[simp] theorem zeroPagePointer_p (p : Byte) (s : State) : ((zeroPagePointer p s).2).p = s.p := rfl
@[simp] theorem zeroPagePointer_pc (p : Byte) (s : State) : ((zeroPagePointer p s).2).pc = s.pc := rfl
@[simp] theorem zeroPagePointer_irqLine (p : Byte) (s : State) : ((zeroPagePointer p s).2).irqLine = s.irqLine := rfl
@[simp] theorem zeroPagePointer_nmiLine (p : Byte) (s : State) : ((zeroPagePointer p s).2).nmiLine = s.nmiLine := rfl
@[simp] theorem zeroPagePointer_resetLine (p : Byte) (s : State) : ((zeroPagePointer p s).2).resetLine = s.resetLine := rfl
@[simp] theorem zeroPagePointer_nmiPending (p : Byte) (s : State) : ((zeroPagePointer p s).2).nmiPending = s.nmiPending := rfl
@[simp] theorem zeroPagePointer_phase (p : Byte) (s : State) : ((zeroPagePointer p s).2).phase = s.phase := rfl
@[simp] theorem zeroPagePointer_cyc (p : Byte) (s : State) : ((zeroPagePointer p s).2).cyc = s.cyc := rfl
@[simp] theorem zeroPagePointer_cfg (p : Byte) (s : State) : ((zeroPagePointer p s).2).cfg = s.cfg := rfl
@[simp] theorem zeroPagePointer_reported (p : Byte) (s : State) : ((zeroPagePointer p s).2).reported = s.reported := rfl
@[simp] theorem zeroPagePointer_draws (p : Byte) (s : State) : ((zeroPagePointer p s).2).draws = s.draws := rfl
@[simp] theorem zeroPagePointer_mask (p : Byte) (s : State) (q : Addr) : ((zeroPagePointer p s).2).mask q = s.mask q := rfl

/-! ### modeIndx -/

@[simp] theorem modeIndx_st_a (b2 : Byte) (s : State) : ((modeIndx b2 s).st).a = s.a := rfl
@[simp] theorem modeIndx_st_x (b2 : Byte) (s : State) : ((modeIndx b2 s).st).x = s.x := rfl
@[simp] theorem modeIndx_st_y (b2 : Byte) (s : State) : ((modeIndx b2 s).st).y = s.y := rfl
@[simp] theorem modeIndx_st_sp (b2 : Byte) (s : State) : ((modeIndx b2 s).st).sp = s.sp := rfl
@[simp] theorem modeIndx_st_p (b2 : Byte) (s : State) : ((modeIndx b2 s).st).p = s.p := rfl
@[simp] theorem modeIndx_st_pc (b2 : Byte) (s : State) : ((modeIndx b2 s).st).pc = s.pc := rfl
@[simp] theorem modeIndx_st_irqLine (b2 : Byte) (s : State) : ((modeIndx b2 s).st).irqLine = s.irqLine := rfl
@[simp] theorem modeIndx_st_nmiLine (b2 : Byte) (s : State) : ((modeIndx b2 s).st).nmiLine = s.nmiLine := rfl
@[simp] theorem modeIndx_st_resetLine (b2 : Byte) (s : State) : ((modeIndx b2 s).st).resetLine = s.resetLine := rfl
@[simp] theorem modeIndx_st_nmiPending (b2 : Byte) (s : State) : ((modeIndx b2 s).st).nmiPending = s.nmiPending := rfl
@[simp] theorem modeIndx_st_phase (b2 : Byte) (s : State) : ((modeIndx b2 s).st).phase = s.phase := rfl
@[simp] theorem modeIndx_st_cyc (b2 : Byte) (s : State) : ((modeIndx b2 s).st).cyc = s.cyc := rfl
@[simp] theorem modeIndx_st_cfg (b2 : Byte) (s : State) : ((modeIndx b2 s).st).cfg = s.cfg := rfl
@[simp] theorem modeIndx_st_reported (b2 : Byte) (s : State) : ((modeIndx b2 s).st).reported = s.reported := rfl
@[simp] theorem modeIndx_st_draws (b2 : Byte) (s : State) : ((modeIndx b2 s).st).draws = s.draws := rfl
@[simp] theorem modeIndx_st_mask (b2 : Byte) (s : State) (q : Addr) : ((modeIndx b2 s).st).mask q = s.mask q := rfl

/-! ### modeIndy -/

@[simp] theorem modeIndy_st_a (b2 : Byte) (s : State) : ((modeIndy b2 s).st).a = s.a := rfl
@[simp] theorem modeIndy_st_x (b2 : Byte) (s : State) : ((modeIndy b2 s).st).x = s.x := rfl
@[simp] theorem modeIndy_st_y (b2 : Byte) (s : State) : ((modeIndy b2 s).st).y = s.y := rfl
@[simp] theorem modeIndy_st_sp (b2 : Byte) (s : State) : ((modeIndy b2 s).st).sp = s.sp := rfl
@[simp] theorem modeIndy_st_p (b2 : Byte) (s : State) : ((modeIndy b2 s).st).p = s.p := rfl
@[simp] theorem modeIndy_st_pc (b2 : Byte) (s : State) : ((modeIndy b2 s).st).pc = s.pc := rfl
@[simp] theorem modeIndy_st_irqLine (b2 : Byte) (s : State) : ((modeIndy b2 s).st).irqLine = s.irqLine := rfl
@[simp] theorem modeIndy_st_nmiLine (b2 : Byte) (s : State) : ((modeIndy b2 s).st).nmiLine = s.nmiLine := rfl
@[simp] theorem modeIndy_st_resetLine (b2 : Byte) (s : State) : ((modeIndy b2 s).st).resetLine = s.resetLine := rfl
@[simp] theorem modeIndy_st_nmiPending (b2 : Byte) (s : State) : ((modeIndy b2 s).st).nmiPending = s.nmiPending := rfl
@[simp] theorem modeIndy_st_phase (b2 : Byte) (s : State) : ((modeIndy b2 s).st).phase = s.phase := rfl
@[simp] theorem modeIndy_st_cyc (b2 : Byte) (s : State) : ((modeIndy b2 s).st).cyc = s.cyc := rfl
@[simp] theorem modeIndy_st_cfg (b2 : Byte) (s : State) : ((modeIndy b2 s).st).cfg = s.cfg := rfl
@[simp] theorem modeIndy_st_reported (b2 : Byte) (s : State) : ((modeIndy b2 s).st).reported = s.reported := rfl
@[simp] theorem modeIndy_st_draws (b2 : Byte) (s : State) : ((modeIndy b2 s).st).draws = s.draws := rfl
@[simp] theorem modeIndy_st_mask (b2 : Byte) (s : State) (q : Addr) : ((modeIndy b2 s).st).mask q = s.mask q := rfl

/-! ### modeInd -/

@[simp] theorem modeInd_a (w : Addr) (s : State) : ((modeInd w s).2).a = s.a := rfl
@[simp] theorem modeInd_x (w : Addr) (s : State) : ((modeInd w s).2).x = s.x := rfl
@[simp] theorem modeInd_y (w : Addr) (s : State) : ((modeInd w s).2).y = s.y := rfl
@[simp] theorem modeInd_sp (w : Addr) (s : State) : ((modeInd w s).2).sp = s.sp := rfl
@[simp] theorem modeInd_p (w : Addr) (s : State) : ((modeInd w s).2).p = s.p := rfl
@[simp] theorem modeInd_pc (w : Addr) (s : State) : ((modeInd w s).2).pc = s.pc := rfl
@[simp] theorem modeInd_irqLine (w : Addr) (s : State) : ((modeInd w s).2).irqLine = s.irqLine := rfl
@[simp] theorem modeInd_nmiLine (w : Addr) (s : State) : ((modeInd w s).2).nmiLine = s.nmiLine := rfl
@[simp] theorem modeInd_resetLine (w : Addr) (s : State) : ((modeInd w s).2).resetLine = s.resetLine := rfl
@[simp] theorem modeInd_nmiPending (w : Addr) (s : State) : ((modeInd w s).2).nmiPending = s.nmiPending := rfl
@[simp] theorem modeInd_phase (w : Addr) (s : State) : ((modeInd w s).2).phase = s.phase := rfl
@[simp] theorem modeInd_cyc (w : Addr) (s : State) : ((modeInd w s).2).cyc = s.cyc := rfl
@[simp] theorem modeInd_cfg (w : Addr) (s : State) : ((modeInd w s).2).cfg = s.cfg := rfl
@[simp] theorem modeInd_reported (w : Addr) (s : State) : ((modeInd w s).2).reported = s.reported := rfl
@[simp] theorem modeInd_draws (w : Addr) (s : State) : ((modeInd w s).2).draws = s.draws := rfl
@[simp] theorem modeInd_mask (w : Addr) (s : State) (q : Addr) : ((modeInd w s).2).mask q = s.mask q := rfl

/-- The pointer of the indirect modes in plain cells: low byte first, wrapping inside page zero (R99, R100). -/
theorem zeroPagePointer_plain {p : Byte} {s : State} (h1 : s.kindAt (s.mask (zext16 p)) ≠ .device)
    (h2 : s.kindAt (s.mask (zext16 (p + 1#8))) ≠ .device) :
    zeroPagePointer p s =
      (wordOf (s.mem.read (s.mask (zext16 (p + 1#8))).toNat) (s.mem.read (s.mask (zext16 p)).toNat),
        { s with
          bus := s.bus ++
            [.read .data (s.mask (zext16 p)) (s.mem.read (s.mask (zext16 p)).toNat),
              .read .data (s.mask (zext16 (p + 1#8))) (s.mem.read (s.mask (zext16 (p + 1#8))).toNat)] }) := by
  simp only [zeroPagePointer, memRead_plain h1]
  rw [memRead_plain (by exact h2)]
  simp [State.mask]

/-- The target of JMP indirect in plain cells: the second byte from the same page as the first (R101). -/
theorem modeInd_plain {w : Addr} {s : State} (h1 : s.kindAt (s.mask w) ≠ .device)
    (h2 : s.kindAt (s.mask (wordOf (hiByte w) (loByte w + 1#8))) ≠ .device) :
    modeInd w s =
      (wordOf (s.mem.read (s.mask (wordOf (hiByte w) (loByte w + 1#8))).toNat) (s.mem.read (s.mask w).toNat),
        { s with
          bus := s.bus ++
            [.read .data (s.mask w) (s.mem.read (s.mask w).toNat),
              .read .data (s.mask (wordOf (hiByte w) (loByte w + 1#8)))
                (s.mem.read (s.mask (wordOf (hiByte w) (loByte w + 1#8))).toNat)] }) := by
  simp only [modeInd, memRead_plain h1]
  rw [memRead_plain (by exact h2)]
  simp [State.mask]

/-! ## The uses of an operand -/

/-- The read class in one equation (R90). -/
theorem readInstr_eq (r : Resolved) (base : Nat) (f : Byte → State → State) :
    readInstr r base f = .next ((f (memRead r.ea r.st).1 (memRead r.ea r.st).2).retire (base + r.penalty)) := rfl

/-- The write class in one equation (R90). -/
theorem writeInstr_eq (r : Resolved) (base : Nat) (v : Byte) :
    writeInstr r base v = .next ((memWrite r.ea v r.st).retire base) := rfl

/-- The read-modify-write class in one equation (R90). -/
theorem rmwInstr_eq (r : Resolved) (base : Nat) (f : Byte → Flags → Byte × Flags) :
    rmwInstr r base f =
      .next (((memWrite r.ea (f (memRead r.ea r.st).1 r.st.p).1 (memRead r.ea r.st).2).withP
        (f (memRead r.ea r.st).1 r.st.p).2).retire base) := rfl

/-- The penalty of a form is 1 when its mode crossed a page, else 0 (R103). -/
theorem penalty_eq (r : Resolved) : r.penalty = if r.crossed then 1 else 0 := rfl

/-- The bus record of a data read: the read of the masked address is appended. -/
theorem memRead_bus (w : Addr) (s : State) :
    (memRead w s).2.bus = s.bus ++ [.read .data (s.mask w) (memRead w s).1] := rfl

/-- The bus record of a store. -/
theorem memWrite_bus (w : Addr) (v : Byte) (s : State) :
    (memWrite w v s).bus = s.bus ++ [.write (s.mask w) v] := rfl

/-- What the program space holds after a store to a RAM cell. -/
theorem memWrite_read_same {w : Addr} {v : Byte} {s : State} (hm : s.mem.wf = true)
    (h : s.kindAt (s.mask w) = .ram) : (memWrite w v s).mem.read (s.mask w).toNat = v :=
  busWrite_read_same hm h

/-- What the program space holds elsewhere after a store to a plain cell. -/
theorem memWrite_read_other {w : Addr} {v : Byte} {s : State} {a : Nat} (hp : s.kindAt (s.mask w) ≠ .device)
    (h : (s.mask w).toNat ≠ a) : (memWrite w v s).mem.read a = s.mem.read a :=
  busWrite_read_other hp h

theorem memWrite_platOk {w : Addr} {v : Byte} {s : State} (h : s.platOk) : (memWrite w v s).platOk := busWrite_platOk h

theorem zeroPagePointer_platOk {p : Byte} {s : State} (h : s.platOk) : (zeroPagePointer p s).2.platOk :=
  memRead_platOk (memRead_platOk h)

theorem modeIndx_platOk {b2 : Byte} {s : State} (h : s.platOk) : (modeIndx b2 s).st.platOk := zeroPagePointer_platOk h

theorem modeIndy_platOk {b2 : Byte} {s : State} (h : s.platOk) : (modeIndy b2 s).st.platOk := zeroPagePointer_platOk h

theorem modeInd_platOk {w : Addr} {s : State} (h : s.platOk) : (modeInd w s).2.platOk := memRead_platOk (memRead_platOk h)

/-- Where a write-class instruction may go: the platform keeps its form, the parameters and `PC` stay. -/
theorem writeInstr_keeps {r : Resolved} {base : Nat} {v : Byte} {t : State} (hm : r.st.platOk)
    (h : writeInstr r base v = .next t) : t.platOk ∧ t.cfg = r.st.cfg ∧ t.pc = r.st.pc ∧ t.cyc = 0 := by
  rw [writeInstr_eq] at h
  cases h
  exact ⟨memWrite_platOk hm, rfl, rfl, rfl⟩

/-- The same for a read-modify-write instruction. -/
theorem rmwInstr_keeps {r : Resolved} {base : Nat} {f : Byte → Flags → Byte × Flags} {t : State} (hm : r.st.platOk)
    (h : rmwInstr r base f = .next t) : t.platOk ∧ t.cfg = r.st.cfg ∧ t.pc = r.st.pc ∧ t.cyc = 0 := by
  rw [rmwInstr_eq] at h
  cases h
  exact ⟨memWrite_platOk (memRead_platOk hm), rfl, rfl, rfl⟩

end Sys2Proof.Machine
end

