-- ==== Sys2Proof/Laws/Accesses.lean ====
section
/-! SUPPORT. Accesses and the platform: each shared operation records the accesses it makes and leaves the platform as they do,
and what accesses of plain cells alone can do. -/

namespace Sys2Proof

open Sys2Proof.Machine

/-! ## Lists of accesses -/

theorem Accesses.trans {c : Config} {M N O : Platform} {l m : List BusAccess} (h : Accesses c M l N)
    (h' : Accesses c N m O) : Accesses c M (l ++ m) O := by
  induction h with
  | nil => exact h'
  | read k a _ ih => exact .read k a (ih h')
  | write a v _ ih => exact .write a v (ih h')

/-- Accesses of plain cells leave what the addresses are. -/
theorem Accesses.regions {c : Config} {M N : Platform} {l : List BusAccess} (h : Accesses c M l N)
    (hp : ∀ b ∈ l, M.kindAt b.addr ≠ .device) : N.regions = M.regions := by
  induction h with
  | nil => rfl
  | read k a _ ih =>
    have e := Platform.afterRead_plain (c := c) (k := k) (hp _ (List.mem_cons_self ..))
    simp only [BusAccess.addr] at e
    rw [e] at ih
    exact ih fun b hb => hp b (List.mem_cons_of_mem _ hb)
  | write a v _ ih =>
    have e := Platform.afterWrite_regions (c := c) (v := v) (hp _ (List.mem_cons_self ..))
    simp only [BusAccess.addr] at e
    rw [← e]
    exact ih fun b hb => by
      rw [Platform.kindAt_congr e]
      exact hp b (List.mem_cons_of_mem _ hb)

/-- A byte after accesses of plain cells: the last write of its cell, where the cell is RAM. -/
theorem Accesses.read_ram {c : Config} {M N : Platform} {l : List BusAccess} (h : Accesses c M l N)
    (hp : ∀ b ∈ l, M.kindAt b.addr ≠ .device) (hm : M.mem.wf = true) {a : Addr} (ha : M.kindAt a = .ram) :
    N.mem.read a.toNat = (lastWrite a l).getD (M.mem.read a.toNat) := by
  induction h with
  | nil => rfl
  | read k b _ ih =>
    have e := Platform.afterRead_plain (c := c) (k := k) (hp _ (List.mem_cons_self ..))
    simp only [BusAccess.addr] at e
    rw [e] at ih
    exact ih (fun b hb => hp b (List.mem_cons_of_mem _ hb)) hm ha
  | @write b v M _ _ _ ih =>
    have hb := hp _ (List.mem_cons_self ..)
    have e := Platform.afterWrite_regions (c := c) (v := v) hb
    simp only [BusAccess.addr] at hb e
    have hw : (M.afterWrite c b v).mem.wf = true := by
      unfold Platform.afterWrite
      split
      · exact Memory.write_wf _ _ hm
      · simpa using hm
      · contradiction
    rw [ih (fun x hx => by rw [Platform.kindAt_congr e]; exact hp x (List.mem_cons_of_mem _ hx)) hw
      (by rw [Platform.kindAt_congr e]; exact ha)]
    simp only [lastWrite]
    by_cases hba : b = a
    · subst hba
      rw [Platform.afterWrite_read_same hm ha]
      cases lastWrite b _ <;> simp
    · rw [Platform.afterWrite_read_other hb (fun h => hba (BitVec.eq_of_toNat_eq h))]
      cases lastWrite a _ <;> simp [hba]

/-- A byte that no access of plain cells wrote is as before. -/
theorem Accesses.read_other {c : Config} {M N : Platform} {l : List BusAccess} (h : Accesses c M l N)
    (hp : ∀ b ∈ l, M.kindAt b.addr ≠ .device) {k : Nat} (hk : ∀ a v, .write a v ∈ l → a.toNat ≠ k) :
    N.mem.read k = M.mem.read k := by
  induction h with
  | nil => rfl
  | read j b _ ih =>
    have e := Platform.afterRead_plain (c := c) (k := j) (hp _ (List.mem_cons_self ..))
    simp only [BusAccess.addr] at e
    rw [e] at ih
    exact ih (fun b hb => hp b (List.mem_cons_of_mem _ hb)) fun a v h => hk a v (List.mem_cons_of_mem _ h)
  | write b v _ ih =>
    have hb := hp _ (List.mem_cons_self ..)
    have e := Platform.afterWrite_regions (c := c) (v := v) hb
    simp only [BusAccess.addr] at hb e
    rw [ih (fun x hx => by rw [Platform.kindAt_congr e]; exact hp x (List.mem_cons_of_mem _ hx))
      fun a v h => hk a v (List.mem_cons_of_mem _ h)]
    exact Platform.afterWrite_read_other hb (hk b v (List.mem_cons_self ..))

/-- Reads of plain cells alone leave the platform. -/
theorem Accesses.reads {c : Config} {M N : Platform} {l : List BusAccess} (h : Accesses c M l N)
    (hp : ∀ b ∈ l, M.kindAt b.addr ≠ .device) (hr : ∀ a v, .write a v ∉ l) : N = M := by
  induction h with
  | nil => rfl
  | read j b _ ih =>
    have e := Platform.afterRead_plain (c := c) (k := j) (hp _ (List.mem_cons_self ..))
    simp only [BusAccess.addr] at e
    rw [e] at ih
    exact ih (fun b hb => hp b (List.mem_cons_of_mem _ hb)) fun a v h => hr a v (List.mem_cons_of_mem _ h)
  | write b v _ ih => exact absurd (List.mem_cons_self ..) (hr b v)

/-- Accesses of plain cells leave the opcode view, where the core has none. -/
theorem Accesses.view {c : Config} {M N : Platform} {l : List BusAccess} (h : Accesses c M l N)
    (hp : ∀ b ∈ l, M.kindAt b.addr ≠ .device) (hv : c.hasOpcodeView = false) : N.opcodeView = M.opcodeView := by
  induction h with
  | nil => rfl
  | read j b _ ih =>
    have e := Platform.afterRead_plain (c := c) (k := j) (hp _ (List.mem_cons_self ..))
    simp only [BusAccess.addr] at e
    rw [e] at ih
    exact ih fun b hb => hp b (List.mem_cons_of_mem _ hb)
  | write b v _ ih =>
    have hb := hp _ (List.mem_cons_self ..)
    have e := Platform.afterWrite_regions (c := c) (v := v) hb
    simp only [BusAccess.addr] at hb e
    rw [ih fun x hx => by rw [Platform.kindAt_congr e]; exact hp x (List.mem_cons_of_mem _ hx)]
    exact Platform.afterWrite_view hv hb

/-- Accesses keep the canonical form, whatever the devices do, where each write is inside the address space. -/
theorem Accesses.ok {c : Config} {M N : Platform} {l : List BusAccess} (h : Accesses c M l N) (hM : M.Ok c.addrWidth)
    (hw : ∀ a v, .write a v ∈ l → a.toNat < 2 ^ c.addrWidth) : N.Ok c.addrWidth := by
  induction h with
  | nil => exact hM
  | read j b _ ih => exact ih (Platform.afterRead_ok hM _ _) fun a v h => hw a v (List.mem_cons_of_mem _ h)
  | write b v _ ih =>
    exact ih (Platform.afterWrite_ok hM (hw b v (List.mem_cons_self ..)) _) fun a v h => hw a v (List.mem_cons_of_mem _ h)

/-- What a read of a plain cell returned after which nothing is written, by any path but the opcode path: the byte the cell
holds at the end. -/
theorem Accesses.read_value {c : Config} {M N : Platform} {l m : List BusAccess} {k : ReadKind} {a : Addr} {v : Byte}
    (h : Accesses c M (l ++ .read k a v :: m) N) (hp : ∀ b ∈ l ++ .read k a v :: m, M.kindAt b.addr ≠ .device)
    (hk : k ≠ .opcode) (hm : ∀ b w, .write b w ∉ m) : v = N.mem.read a.toNat := by
  induction l generalizing M with
  | nil =>
    cases h with | read _ _ rest =>
    have ha : M.kindAt a ≠ .device := hp (.read k a _) (List.mem_cons_self ..)
    rw [Platform.value_plain ha hk]
    rw [Platform.afterRead_plain ha] at rest
    rw [rest.reads (fun b hb => hp b (List.mem_cons_of_mem _ hb)) hm]
  | cons x l ih =>
    have hx : M.kindAt x.addr ≠ .device := hp x (List.mem_cons_self ..)
    cases h with
    | read j b rest =>
      rw [show M.afterRead c j b = M from Platform.afterRead_plain hx] at rest
      exact ih rest fun b hb => hp b (List.mem_cons_of_mem _ hb)
    | write b w rest =>
      refine ih rest fun y hy => ?_
      rw [Platform.kindAt_congr (Platform.afterWrite_regions (a := b) hx)]
      exact hp y (List.mem_cons_of_mem _ hy)

namespace Machine

/-! ## What the operations do -/

/-- Between `s` and `t` the accesses `l` were made and recorded. -/
structure Does (s : State) (l : List BusAccess) (t : State) : Prop where
  bus : t.bus = s.bus ++ l
  cfg : t.cfg = s.cfg
  plat : Accesses s.cfg s.plat l t.plat

theorem Does.trans {s t u : State} {l m : List BusAccess} (h : Does s l t) (h' : Does t m u) : Does s (l ++ m) u :=
  ⟨by rw [h'.bus, h.bus, List.append_assoc], h'.cfg.trans h.cfg, h.plat.trans (h.cfg ▸ h'.plat)⟩

/-- An update of registers alone makes no access. -/
theorem Does.none {s t : State} (hb : t.bus = s.bus) (hc : t.cfg = s.cfg) (hp : t.plat = s.plat) : Does s [] t :=
  ⟨by simp [hb], hc, hp ▸ .nil _⟩

theorem Does.newAccesses {s t : State} {l : List BusAccess} (h : Does s l t) : newAccesses s t = l := by
  simp [Sys2Proof.newAccesses, h.bus]

/-- Accesses of plain cells alone: the condition on `t` is one on the list. -/
theorem Does.onlyPlain {s t : State} {l : List BusAccess} (h : Does s l t) :
    OnlyPlain s t ↔ ∀ b ∈ l, s.plat.kindAt b.addr ≠ .device := by
  simp [OnlyPlain, h.newAccesses, State.kindAt]

theorem busRead_does (k : ReadKind) (w : Addr) (s : State) :
    Does s [.read k (s.mask w) (busRead k w s).1] (busRead k w s).2 :=
  ⟨rfl, rfl, .read _ _ (.nil _)⟩

theorem busWrite_does (w : Addr) (v : Byte) (s : State) : Does s [.write (s.mask w) v] (busWrite w v s) :=
  ⟨rfl, rfl, .write _ _ (.nil _)⟩

theorem memRead_does (w : Addr) (s : State) : Does s [.read .data (s.mask w) (memRead w s).1] (memRead w s).2 :=
  busRead_does _ _ _

theorem memWrite_does (w : Addr) (v : Byte) (s : State) : Does s [.write (s.mask w) v] (memWrite w v s) :=
  busWrite_does _ _ _

theorem fetchOpcode_does (s : State) : Does s [.read .opcode (s.mask s.pc) (fetchOpcode s).1] (fetchOpcode s).2 :=
  ⟨rfl, rfl, .read _ _ (.nil _)⟩

theorem fetchOperand_does (s : State) : Does s [.read .operand (s.mask s.pc) (fetchOperand s).1] (fetchOperand s).2 :=
  ⟨rfl, rfl, .read _ _ (.nil _)⟩

theorem push_does (v : Byte) (s : State) : Does s [.write (s.mask (stackAddr s.sp)) v] (push v s) :=
  ⟨rfl, rfl, .write _ _ (.nil _)⟩

theorem pull_does (s : State) : Does s [.read .data (s.mask (stackAddr (s.sp + 1#8))) (pull s).1] (pull s).2 :=
  ⟨rfl, rfl, .read _ _ (.nil _)⟩

theorem readVector_does (w : Addr) (s : State) : Does s [.read .vector (s.mask w) (readVector w s).1] (readVector w s).2 :=
  busRead_does _ _ _

/-- A pushed word: its high byte first (R51). -/
theorem pushWord_does (w : Addr) (s : State) :
    Does s [.write (s.mask (stackAddr s.sp)) (hiByte w), .write (s.mask (stackAddr (s.sp - 1#8))) (loByte w)]
      (pushWord w s) :=
  (push_does _ s).trans (push_does _ _)

/-- A pulled word: its low byte first. -/
theorem pullWord_does (s : State) :
    Does s
      [.read .data (s.mask (stackAddr (s.sp + 1#8))) (pull s).1,
        .read .data (s.mask (stackAddr (s.sp + 1#8 + 1#8))) (pull (pull s).2).1] (pullWord s).2 :=
  (pull_does s).trans (pull_does _)

theorem readVectorWord_does (w : Addr) (s : State) :
    Does s
      [.read .vector (s.mask w) (readVector w s).1,
        .read .vector (s.mask (w + 1#16)) (readVector (w + 1#16) (readVector w s).2).1] (readVectorWord w s).2 :=
  (readVector_does w s).trans (readVector_does _ _)

theorem zeroPagePointer_does (p : Byte) (s : State) :
    Does s
      [.read .data (s.mask (zext16 p)) (memRead (zext16 p) s).1,
        .read .data (s.mask (zext16 (p + 1#8))) (memRead (zext16 (p + 1#8)) (memRead (zext16 p) s).2).1]
      (zeroPagePointer p s).2 :=
  (memRead_does _ s).trans (memRead_does _ _)

theorem modeIndx_does (b2 : Byte) (s : State) : ∃ l, Does s l (modeIndx b2 s).st ∧ ∀ a v, .write a v ∉ l :=
  ⟨_, zeroPagePointer_does _ s, by simp⟩

theorem modeIndy_does (b2 : Byte) (s : State) : ∃ l, Does s l (modeIndy b2 s).st ∧ ∀ a v, .write a v ∉ l :=
  ⟨_, zeroPagePointer_does _ s, by simp⟩

theorem modeInd_does (w : Addr) (s : State) : ∃ l, Does s l (modeInd w s).2 ∧ ∀ a v, .write a v ∉ l :=
  ⟨_, (memRead_does _ s).trans (memRead_does _ _), by simp⟩

/-- A read-class form: after the accesses of its mode one data read of the effective address (R90). Its operation, which works
on registers, makes no access. -/
theorem readInstr_does {s t : State} {r : Resolved} {base : Nat} {f : Byte → State → State} {l : List BusAccess}
    (h : readInstr r base f = .next t) (hr : Does s l r.st)
    (hf : ∀ b u, (f b u).bus = u.bus ∧ (f b u).cfg = u.cfg ∧ (f b u).plat = u.plat) :
    Does s (l ++ [.read .data (s.mask r.ea) (memRead r.ea r.st).1]) t := by
  cases h
  obtain ⟨hb, hc, hp⟩ := hf (memRead r.ea r.st).1 (memRead r.ea r.st).2
  have := (hr.trans (memRead_does r.ea r.st)).trans (Does.none hb hc hp)
  simpa [State.mask_congr hr.cfg] using this.trans (Does.none (t := (f _ _).retire (base + r.penalty)) rfl rfl rfl)

/-- A write-class form: one write of the effective address, no read. -/
theorem writeInstr_does {s t : State} {r : Resolved} {base : Nat} {v : Byte} {l : List BusAccess}
    (h : writeInstr r base v = .next t) (hr : Does s l r.st) : Does s (l ++ [.write (s.mask r.ea) v]) t := by
  cases h
  have := (hr.trans (memWrite_does r.ea v r.st)).trans (Does.none (t := (memWrite r.ea v r.st).retire base) rfl rfl rfl)
  simpa [State.mask_congr hr.cfg] using this

/-- A read-modify-write form: one read, then one write of the same address. -/
theorem rmwInstr_does {s t : State} {r : Resolved} {base : Nat} {f : Byte → Flags → Byte × Flags} {l : List BusAccess}
    (h : rmwInstr r base f = .next t) (hr : Does s l r.st) :
    ∃ v, Does s (l ++ [.read .data (s.mask r.ea) (memRead r.ea r.st).1, .write (s.mask r.ea) v]) t := by
  cases h
  let q := f (memRead r.ea r.st).1 (memRead r.ea r.st).2.p
  have := ((hr.trans (memRead_does r.ea r.st)).trans (memWrite_does r.ea q.1 (memRead r.ea r.st).2)).trans
    (Does.none (t := ((memWrite r.ea q.1 (memRead r.ea r.st).2).withP q.2).retire base) rfl rfl rfl)
  exact ⟨q.1, by simpa [State.mask_congr hr.cfg, q] using this⟩

theorem skipOperands_does (k : Nat) (s : State) : ∃ l, Does s l (skipOperands k s) ∧ ∀ a v, .write a v ∉ l := by
  induction k generalizing s with
  | zero => exact ⟨[], .none rfl rfl rfl, by simp⟩
  | succ k ih =>
    obtain ⟨l, h, hl⟩ := ih (fetchOperand s).2
    exact ⟨_, (fetchOperand_does s).trans h, by simpa using hl⟩

theorem fetchInstr_does (s : State) : ∃ l, Does s l (fetchInstr s).2 ∧ ∀ a v, .write a v ∉ l := by
  obtain h | h | h := fetchInstr_state s <;> rw [h]
  · exact ⟨_, fetchOpcode_does s, by simp⟩
  · exact ⟨_, (fetchOpcode_does s).trans (fetchOperand_does _), by simp⟩
  · exact ⟨_, ((fetchOpcode_does s).trans (fetchOperand_does _)).trans (fetchOperand_does _), by simp⟩

/-- The accesses of an entry, in order (R236). -/
theorem raiseInterrupt_does (k : InterruptKind) (s : State) :
    ∃ lo hi : Byte,
      Does s
        [.write (s.mask (stackAddr s.sp)) (hiByte s.pc), .write (s.mask (stackAddr (s.sp - 1#8))) (loByte s.pc),
          .write (s.mask (stackAddr (s.sp - 1#8 - 1#8))) (packP (breakBit k) s.p),
          .read .vector (s.mask (vectorAddr k)) lo, .read .vector (s.mask (vectorAddr k + 1#16)) hi]
        (raiseInterrupt k s) ∧
      (raiseInterrupt k s).pc = s.mask (wordOf hi lo) := by
  refine ⟨_, _, ?_, raiseInterrupt_pc k s⟩
  have h1 := (pushWord_does s.pc s).trans (push_does (packP (breakBit k) s.p) _)
  have h2 := readVectorWord_does (vectorAddr k)
    ((push (packP (breakBit k) s.p) (pushWord s.pc s)).withP { s.p with i := true })
  exact (h1.trans (Does.none (t := (push (packP (breakBit k) s.p) (pushWord s.pc s)).withP { s.p with i := true })
    rfl rfl rfl)).trans (h2.trans (Does.none rfl rfl rfl))

/-- The accesses of a return (R239). -/
theorem returnFromInterrupt_does (s : State) :
    Does s
      [.read .data (s.mask (stackAddr (s.sp + 1#8))) (pull s).1,
        .read .data (s.mask (stackAddr (s.sp + 1#8 + 1#8))) (pull ((pull s).2.withP (unpackP (pull s).1))).1,
        .read .data (s.mask (stackAddr (s.sp + 1#8 + 1#8 + 1#8)))
          (pull (pull ((pull s).2.withP (unpackP (pull s).1))).2).1]
      (returnFromInterrupt s) :=
  ((pull_does s).trans (Does.none (t := (pull s).2.withP (unpackP (pull s).1)) rfl rfl rfl)).trans
    ((pullWord_does _).trans (Does.none rfl rfl rfl))

end Machine

end Sys2Proof
end

