-- ==== Sys2Proof/Laws/Interrupts.lean ====
section
/-! SUPPORT. The interrupt check and the reset service: what each leaves alone, and the three outcomes of a check. -/

namespace Sys2Proof.Machine

/-! ## The interrupt check -/

/-- A pending NMI is taken first (R237). -/
theorem interruptCheck_nmi {s : State} (h : s.nmiPending = true) :
    interruptCheck s =
      { raiseInterrupt .nmi { s with nmiPending := false } with phase := .atFetch, cyc := 0, reported := 7 } := by
  simp [interruptCheck, h]

/-- An asserted IRQ is taken when no NMI is pending and `I` is 0 (R234). -/
theorem interruptCheck_irq {s : State} (hn : s.nmiPending = false) (hl : s.irqLine = true) (hi : s.p.i = false) :
    interruptCheck s = { raiseInterrupt .irq s with phase := .atFetch, cyc := 0, reported := 7 } := by
  simp [interruptCheck, hn, hl, hi]

/-- Else the check takes nothing (R234). -/
theorem interruptCheck_none {s : State} (hn : s.nmiPending = false) (h : s.irqLine = false ∨ s.p.i = true) :
    interruptCheck s = { s with phase := .atFetch, cyc := 0, reported := 0 } := by
  obtain h | h := h <;> simp [interruptCheck, hn, h]

/-! ## The reset service -/

@[simp] theorem readResetVector_a (w : Addr) (s : State) : ((readResetVector w s).2).a = s.a := by
  unfold readResetVector
  split <;> rfl
@[simp] theorem readResetVector_x (w : Addr) (s : State) : ((readResetVector w s).2).x = s.x := by
  unfold readResetVector
  split <;> rfl
@[simp] theorem readResetVector_y (w : Addr) (s : State) : ((readResetVector w s).2).y = s.y := by
  unfold readResetVector
  split <;> rfl
@[simp] theorem readResetVector_sp (w : Addr) (s : State) : ((readResetVector w s).2).sp = s.sp := by
  unfold readResetVector
  split <;> rfl
@[simp] theorem readResetVector_p (w : Addr) (s : State) : ((readResetVector w s).2).p = s.p := by
  unfold readResetVector
  split <;> rfl
@[simp] theorem readResetVector_pc (w : Addr) (s : State) : ((readResetVector w s).2).pc = s.pc := by
  unfold readResetVector
  split <;> rfl
@[simp] theorem readResetVector_irqLine (w : Addr) (s : State) : ((readResetVector w s).2).irqLine = s.irqLine := by
  unfold readResetVector
  split <;> rfl
@[simp] theorem readResetVector_nmiLine (w : Addr) (s : State) : ((readResetVector w s).2).nmiLine = s.nmiLine := by
  unfold readResetVector
  split <;> rfl
@[simp] theorem readResetVector_resetLine (w : Addr) (s : State) : ((readResetVector w s).2).resetLine = s.resetLine := by
  unfold readResetVector
  split <;> rfl
@[simp] theorem readResetVector_nmiPending (w : Addr) (s : State) : ((readResetVector w s).2).nmiPending = s.nmiPending := by
  unfold readResetVector
  split <;> rfl
@[simp] theorem readResetVector_phase (w : Addr) (s : State) : ((readResetVector w s).2).phase = s.phase := by
  unfold readResetVector
  split <;> rfl
@[simp] theorem readResetVector_cyc (w : Addr) (s : State) : ((readResetVector w s).2).cyc = s.cyc := by
  unfold readResetVector
  split <;> rfl
@[simp] theorem readResetVector_plat (w : Addr) (s : State) : ((readResetVector w s).2).plat = s.plat := by
  unfold readResetVector
  split <;> rfl
@[simp] theorem readResetVector_cfg (w : Addr) (s : State) : ((readResetVector w s).2).cfg = s.cfg := by
  unfold readResetVector
  split <;> rfl
@[simp] theorem readResetVector_reported (w : Addr) (s : State) : ((readResetVector w s).2).reported = s.reported := by
  unfold readResetVector
  split <;> rfl
@[simp] theorem readResetVector_draws (w : Addr) (s : State) : ((readResetVector w s).2).draws = s.draws := by
  unfold readResetVector
  split <;> rfl
@[simp] theorem readResetVector_mask (w : Addr) (s : State) (q : Addr) : ((readResetVector w s).2).mask q = s.mask q := by
  unfold readResetVector
  split <;> rfl
@[simp] theorem readResetVector_kindAt (w : Addr) (s : State) (q : Addr) : ((readResetVector w s).2).kindAt q = s.kindAt q := by
  unfold readResetVector
  split <;> rfl

@[simp] theorem resetService_irqLine (s : State) : (resetService s).irqLine = s.irqLine := by
  simp [resetService]
@[simp] theorem resetService_nmiLine (s : State) : (resetService s).nmiLine = s.nmiLine := by
  simp [resetService]
@[simp] theorem resetService_resetLine (s : State) : (resetService s).resetLine = s.resetLine := by
  simp [resetService]
@[simp] theorem resetService_nmiPending (s : State) : (resetService s).nmiPending = false := by
  simp [resetService]
@[simp] theorem resetService_phase (s : State) : (resetService s).phase = .atFetch := by
  simp [resetService]
@[simp] theorem resetService_cyc (s : State) : (resetService s).cyc = 0 := by
  simp [resetService]
@[simp] theorem resetService_plat (s : State) : (resetService s).plat = s.plat := by
  simp [resetService]
@[simp] theorem resetService_cfg (s : State) : (resetService s).cfg = s.cfg := by
  simp [resetService]
@[simp] theorem resetService_reported (s : State) : (resetService s).reported = 7 := by
  simp [resetService]
@[simp] theorem resetService_mask (s : State) (q : Addr) : (resetService s).mask q = s.mask q := by
  simp [State.mask]
@[simp] theorem resetService_kindAt (s : State) (q : Addr) : (resetService s).kindAt q = s.kindAt q := by
  simp [State.kindAt]

@[simp] theorem resetService_i (s : State) : (resetService s).p.i = true := rfl

/-- `PC` after a reset service (R271). -/
theorem resetService_pc (s : State) :
    (resetService s).pc =
      s.mask (wordOf (readResetVector 0xFFFD#16 (readResetVector 0xFFFC#16 { s with bus := [] }).2).1
        (readResetVector 0xFFFC#16 { s with bus := [] }).1) := by
  simp [resetService, State.mask]

/-- The reset vector in plain cells, by the direct path: the byte of the program space (R49, R274). -/
theorem readResetVector_direct {q : Addr} {s : State} (hv : s.cfg.resetVectorView = .direct)
    (h : s.kindAt (s.mask q) ≠ .device) : (readResetVector q s).1 = s.mem.read (s.mask q).toNat := by
  simp only [readResetVector, hv, busObserve]
  exact Platform.value_plain h (by decide)

/-- The same by the opcode path: the byte of the opcode view (R49, R274). -/
theorem readResetVector_decrypted {q : Addr} {s : State} (hv : s.cfg.resetVectorView = .decrypted)
    (h : s.kindAt (s.mask q) ≠ .device) : (readResetVector q s).1 = opcodeByteAt s q := by
  simp only [readResetVector, hv, busObserve]
  exact Platform.value_opcode h

end Sys2Proof.Machine
end

