-- ==== Sys2Proof/Laws/PerInstr.lean ====
section
/-! SUPPORT. One lemma per constructor of `Instr`: the encoding starts with an opcode byte of the format whose operand bytes
follow it (R70, R71). -/

namespace Sys2Proof.Laws.Encoding

/-- How many operand bytes a row of the decode table has (R71). -/
def operandBytes : Entry → Nat
  | .f1 _ => 0
  | .f2 _ => 1
  | .f3 _ => 2
  | .f3Late _ => 2

/-- The encoding of a well-formed instruction is an opcode byte and as many bytes as its row has operand bytes. -/
def Statement (i : Instr) : Prop :=
  i.wellFormed = true → ∃ op operands, encode i = op :: operands ∧ operandBytes (opcodeEntry op) = operands.length

/-- Every undefined opcode byte is a row without operand bytes (R72, R76). -/
theorem operandBytes_undefined : ∀ op ∈ undefinedOpcodes, operandBytes (opcodeEntry op) = 0 := by decide

theorem ldaIndx (b2 : Byte) : Statement (.ldaIndx b2) := fun _ => ⟨_, _, rfl, rfl⟩
theorem ldaZp (b2 : Byte) : Statement (.ldaZp b2) := fun _ => ⟨_, _, rfl, rfl⟩
theorem ldaImm (m : Byte) : Statement (.ldaImm m) := fun _ => ⟨_, _, rfl, rfl⟩
theorem ldaAbs (addr : Addr) : Statement (.ldaAbs addr) := fun _ => ⟨_, _, rfl, rfl⟩
theorem ldaIndy (b2 : Byte) : Statement (.ldaIndy b2) := fun _ => ⟨_, _, rfl, rfl⟩
theorem ldaZpx (b2 : Byte) : Statement (.ldaZpx b2) := fun _ => ⟨_, _, rfl, rfl⟩
theorem ldaAbsy (addr : Addr) : Statement (.ldaAbsy addr) := fun _ => ⟨_, _, rfl, rfl⟩
theorem ldaAbsx (addr : Addr) : Statement (.ldaAbsx addr) := fun _ => ⟨_, _, rfl, rfl⟩
theorem ldxImm (m : Byte) : Statement (.ldxImm m) := fun _ => ⟨_, _, rfl, rfl⟩
theorem ldxZp (b2 : Byte) : Statement (.ldxZp b2) := fun _ => ⟨_, _, rfl, rfl⟩
theorem ldxAbs (addr : Addr) : Statement (.ldxAbs addr) := fun _ => ⟨_, _, rfl, rfl⟩
theorem ldxZpy (b2 : Byte) : Statement (.ldxZpy b2) := fun _ => ⟨_, _, rfl, rfl⟩
theorem ldxAbsy (addr : Addr) : Statement (.ldxAbsy addr) := fun _ => ⟨_, _, rfl, rfl⟩
theorem ldyImm (m : Byte) : Statement (.ldyImm m) := fun _ => ⟨_, _, rfl, rfl⟩
theorem ldyZp (b2 : Byte) : Statement (.ldyZp b2) := fun _ => ⟨_, _, rfl, rfl⟩
theorem ldyAbs (addr : Addr) : Statement (.ldyAbs addr) := fun _ => ⟨_, _, rfl, rfl⟩
theorem ldyZpx (b2 : Byte) : Statement (.ldyZpx b2) := fun _ => ⟨_, _, rfl, rfl⟩
theorem ldyAbsx (addr : Addr) : Statement (.ldyAbsx addr) := fun _ => ⟨_, _, rfl, rfl⟩
theorem staIndx (b2 : Byte) : Statement (.staIndx b2) := fun _ => ⟨_, _, rfl, rfl⟩
theorem staZp (b2 : Byte) : Statement (.staZp b2) := fun _ => ⟨_, _, rfl, rfl⟩
theorem staAbs (addr : Addr) : Statement (.staAbs addr) := fun _ => ⟨_, _, rfl, rfl⟩
theorem staIndy (b2 : Byte) : Statement (.staIndy b2) := fun _ => ⟨_, _, rfl, rfl⟩
theorem staZpx (b2 : Byte) : Statement (.staZpx b2) := fun _ => ⟨_, _, rfl, rfl⟩
theorem staAbsy (addr : Addr) : Statement (.staAbsy addr) := fun _ => ⟨_, _, rfl, rfl⟩
theorem staAbsx (addr : Addr) : Statement (.staAbsx addr) := fun _ => ⟨_, _, rfl, rfl⟩
theorem stxZp (b2 : Byte) : Statement (.stxZp b2) := fun _ => ⟨_, _, rfl, rfl⟩
theorem stxAbs (addr : Addr) : Statement (.stxAbs addr) := fun _ => ⟨_, _, rfl, rfl⟩
theorem stxZpy (b2 : Byte) : Statement (.stxZpy b2) := fun _ => ⟨_, _, rfl, rfl⟩
theorem styZp (b2 : Byte) : Statement (.styZp b2) := fun _ => ⟨_, _, rfl, rfl⟩
theorem styAbs (addr : Addr) : Statement (.styAbs addr) := fun _ => ⟨_, _, rfl, rfl⟩
theorem styZpx (b2 : Byte) : Statement (.styZpx b2) := fun _ => ⟨_, _, rfl, rfl⟩
theorem tax : Statement (.tax) := fun _ => ⟨_, _, rfl, rfl⟩
theorem tay : Statement (.tay) := fun _ => ⟨_, _, rfl, rfl⟩
theorem txa : Statement (.txa) := fun _ => ⟨_, _, rfl, rfl⟩
theorem tya : Statement (.tya) := fun _ => ⟨_, _, rfl, rfl⟩
theorem tsx : Statement (.tsx) := fun _ => ⟨_, _, rfl, rfl⟩
theorem txs : Statement (.txs) := fun _ => ⟨_, _, rfl, rfl⟩
theorem adcIndx (b2 : Byte) : Statement (.adcIndx b2) := fun _ => ⟨_, _, rfl, rfl⟩
theorem adcZp (b2 : Byte) : Statement (.adcZp b2) := fun _ => ⟨_, _, rfl, rfl⟩
theorem adcImm (m : Byte) : Statement (.adcImm m) := fun _ => ⟨_, _, rfl, rfl⟩
theorem adcAbs (addr : Addr) : Statement (.adcAbs addr) := fun _ => ⟨_, _, rfl, rfl⟩
theorem adcIndy (b2 : Byte) : Statement (.adcIndy b2) := fun _ => ⟨_, _, rfl, rfl⟩
theorem adcZpx (b2 : Byte) : Statement (.adcZpx b2) := fun _ => ⟨_, _, rfl, rfl⟩
theorem adcAbsy (addr : Addr) : Statement (.adcAbsy addr) := fun _ => ⟨_, _, rfl, rfl⟩
theorem adcAbsx (addr : Addr) : Statement (.adcAbsx addr) := fun _ => ⟨_, _, rfl, rfl⟩
theorem sbcIndx (b2 : Byte) : Statement (.sbcIndx b2) := fun _ => ⟨_, _, rfl, rfl⟩
theorem sbcZp (b2 : Byte) : Statement (.sbcZp b2) := fun _ => ⟨_, _, rfl, rfl⟩
theorem sbcImm (m : Byte) : Statement (.sbcImm m) := fun _ => ⟨_, _, rfl, rfl⟩
theorem sbcAbs (addr : Addr) : Statement (.sbcAbs addr) := fun _ => ⟨_, _, rfl, rfl⟩
theorem sbcIndy (b2 : Byte) : Statement (.sbcIndy b2) := fun _ => ⟨_, _, rfl, rfl⟩
theorem sbcZpx (b2 : Byte) : Statement (.sbcZpx b2) := fun _ => ⟨_, _, rfl, rfl⟩
theorem sbcAbsy (addr : Addr) : Statement (.sbcAbsy addr) := fun _ => ⟨_, _, rfl, rfl⟩
theorem sbcAbsx (addr : Addr) : Statement (.sbcAbsx addr) := fun _ => ⟨_, _, rfl, rfl⟩
theorem cmpIndx (b2 : Byte) : Statement (.cmpIndx b2) := fun _ => ⟨_, _, rfl, rfl⟩
theorem cmpZp (b2 : Byte) : Statement (.cmpZp b2) := fun _ => ⟨_, _, rfl, rfl⟩
theorem cmpImm (m : Byte) : Statement (.cmpImm m) := fun _ => ⟨_, _, rfl, rfl⟩
theorem cmpAbs (addr : Addr) : Statement (.cmpAbs addr) := fun _ => ⟨_, _, rfl, rfl⟩
theorem cmpIndy (b2 : Byte) : Statement (.cmpIndy b2) := fun _ => ⟨_, _, rfl, rfl⟩
theorem cmpZpx (b2 : Byte) : Statement (.cmpZpx b2) := fun _ => ⟨_, _, rfl, rfl⟩
theorem cmpAbsy (addr : Addr) : Statement (.cmpAbsy addr) := fun _ => ⟨_, _, rfl, rfl⟩
theorem cmpAbsx (addr : Addr) : Statement (.cmpAbsx addr) := fun _ => ⟨_, _, rfl, rfl⟩
theorem cpxImm (m : Byte) : Statement (.cpxImm m) := fun _ => ⟨_, _, rfl, rfl⟩
theorem cpxZp (b2 : Byte) : Statement (.cpxZp b2) := fun _ => ⟨_, _, rfl, rfl⟩
theorem cpxAbs (addr : Addr) : Statement (.cpxAbs addr) := fun _ => ⟨_, _, rfl, rfl⟩
theorem cpyImm (m : Byte) : Statement (.cpyImm m) := fun _ => ⟨_, _, rfl, rfl⟩
theorem cpyZp (b2 : Byte) : Statement (.cpyZp b2) := fun _ => ⟨_, _, rfl, rfl⟩
theorem cpyAbs (addr : Addr) : Statement (.cpyAbs addr) := fun _ => ⟨_, _, rfl, rfl⟩
theorem incZp (b2 : Byte) : Statement (.incZp b2) := fun _ => ⟨_, _, rfl, rfl⟩
theorem incAbs (addr : Addr) : Statement (.incAbs addr) := fun _ => ⟨_, _, rfl, rfl⟩
theorem incZpx (b2 : Byte) : Statement (.incZpx b2) := fun _ => ⟨_, _, rfl, rfl⟩
theorem incAbsx (addr : Addr) : Statement (.incAbsx addr) := fun _ => ⟨_, _, rfl, rfl⟩
theorem decZp (b2 : Byte) : Statement (.decZp b2) := fun _ => ⟨_, _, rfl, rfl⟩
theorem decAbs (addr : Addr) : Statement (.decAbs addr) := fun _ => ⟨_, _, rfl, rfl⟩
theorem decZpx (b2 : Byte) : Statement (.decZpx b2) := fun _ => ⟨_, _, rfl, rfl⟩
theorem decAbsx (addr : Addr) : Statement (.decAbsx addr) := fun _ => ⟨_, _, rfl, rfl⟩
theorem inx : Statement (.inx) := fun _ => ⟨_, _, rfl, rfl⟩
theorem iny : Statement (.iny) := fun _ => ⟨_, _, rfl, rfl⟩
theorem dex : Statement (.dex) := fun _ => ⟨_, _, rfl, rfl⟩
theorem dey : Statement (.dey) := fun _ => ⟨_, _, rfl, rfl⟩
theorem andIndx (b2 : Byte) : Statement (.andIndx b2) := fun _ => ⟨_, _, rfl, rfl⟩
theorem andZp (b2 : Byte) : Statement (.andZp b2) := fun _ => ⟨_, _, rfl, rfl⟩
theorem andImm (m : Byte) : Statement (.andImm m) := fun _ => ⟨_, _, rfl, rfl⟩
theorem andAbs (addr : Addr) : Statement (.andAbs addr) := fun _ => ⟨_, _, rfl, rfl⟩
theorem andIndy (b2 : Byte) : Statement (.andIndy b2) := fun _ => ⟨_, _, rfl, rfl⟩
theorem andZpx (b2 : Byte) : Statement (.andZpx b2) := fun _ => ⟨_, _, rfl, rfl⟩
theorem andAbsy (addr : Addr) : Statement (.andAbsy addr) := fun _ => ⟨_, _, rfl, rfl⟩
theorem andAbsx (addr : Addr) : Statement (.andAbsx addr) := fun _ => ⟨_, _, rfl, rfl⟩
theorem oraIndx (b2 : Byte) : Statement (.oraIndx b2) := fun _ => ⟨_, _, rfl, rfl⟩
theorem oraZp (b2 : Byte) : Statement (.oraZp b2) := fun _ => ⟨_, _, rfl, rfl⟩
theorem oraImm (m : Byte) : Statement (.oraImm m) := fun _ => ⟨_, _, rfl, rfl⟩
theorem oraAbs (addr : Addr) : Statement (.oraAbs addr) := fun _ => ⟨_, _, rfl, rfl⟩
theorem oraIndy (b2 : Byte) : Statement (.oraIndy b2) := fun _ => ⟨_, _, rfl, rfl⟩
theorem oraZpx (b2 : Byte) : Statement (.oraZpx b2) := fun _ => ⟨_, _, rfl, rfl⟩
theorem oraAbsy (addr : Addr) : Statement (.oraAbsy addr) := fun _ => ⟨_, _, rfl, rfl⟩
theorem oraAbsx (addr : Addr) : Statement (.oraAbsx addr) := fun _ => ⟨_, _, rfl, rfl⟩
theorem eorIndx (b2 : Byte) : Statement (.eorIndx b2) := fun _ => ⟨_, _, rfl, rfl⟩
theorem eorZp (b2 : Byte) : Statement (.eorZp b2) := fun _ => ⟨_, _, rfl, rfl⟩
theorem eorImm (m : Byte) : Statement (.eorImm m) := fun _ => ⟨_, _, rfl, rfl⟩
theorem eorAbs (addr : Addr) : Statement (.eorAbs addr) := fun _ => ⟨_, _, rfl, rfl⟩
theorem eorIndy (b2 : Byte) : Statement (.eorIndy b2) := fun _ => ⟨_, _, rfl, rfl⟩
theorem eorZpx (b2 : Byte) : Statement (.eorZpx b2) := fun _ => ⟨_, _, rfl, rfl⟩
theorem eorAbsy (addr : Addr) : Statement (.eorAbsy addr) := fun _ => ⟨_, _, rfl, rfl⟩
theorem eorAbsx (addr : Addr) : Statement (.eorAbsx addr) := fun _ => ⟨_, _, rfl, rfl⟩
theorem bitZp (b2 : Byte) : Statement (.bitZp b2) := fun _ => ⟨_, _, rfl, rfl⟩
theorem bitAbs (addr : Addr) : Statement (.bitAbs addr) := fun _ => ⟨_, _, rfl, rfl⟩
theorem aslZp (b2 : Byte) : Statement (.aslZp b2) := fun _ => ⟨_, _, rfl, rfl⟩
theorem aslAcc : Statement (.aslAcc) := fun _ => ⟨_, _, rfl, rfl⟩
theorem aslAbs (addr : Addr) : Statement (.aslAbs addr) := fun _ => ⟨_, _, rfl, rfl⟩
theorem aslZpx (b2 : Byte) : Statement (.aslZpx b2) := fun _ => ⟨_, _, rfl, rfl⟩
theorem aslAbsx (addr : Addr) : Statement (.aslAbsx addr) := fun _ => ⟨_, _, rfl, rfl⟩
theorem lsrZp (b2 : Byte) : Statement (.lsrZp b2) := fun _ => ⟨_, _, rfl, rfl⟩
theorem lsrAcc : Statement (.lsrAcc) := fun _ => ⟨_, _, rfl, rfl⟩
theorem lsrAbs (addr : Addr) : Statement (.lsrAbs addr) := fun _ => ⟨_, _, rfl, rfl⟩
theorem lsrZpx (b2 : Byte) : Statement (.lsrZpx b2) := fun _ => ⟨_, _, rfl, rfl⟩
theorem lsrAbsx (addr : Addr) : Statement (.lsrAbsx addr) := fun _ => ⟨_, _, rfl, rfl⟩
theorem rolZp (b2 : Byte) : Statement (.rolZp b2) := fun _ => ⟨_, _, rfl, rfl⟩
theorem rolAcc : Statement (.rolAcc) := fun _ => ⟨_, _, rfl, rfl⟩
theorem rolAbs (addr : Addr) : Statement (.rolAbs addr) := fun _ => ⟨_, _, rfl, rfl⟩
theorem rolZpx (b2 : Byte) : Statement (.rolZpx b2) := fun _ => ⟨_, _, rfl, rfl⟩
theorem rolAbsx (addr : Addr) : Statement (.rolAbsx addr) := fun _ => ⟨_, _, rfl, rfl⟩
theorem rorZp (b2 : Byte) : Statement (.rorZp b2) := fun _ => ⟨_, _, rfl, rfl⟩
theorem rorAcc : Statement (.rorAcc) := fun _ => ⟨_, _, rfl, rfl⟩
theorem rorAbs (addr : Addr) : Statement (.rorAbs addr) := fun _ => ⟨_, _, rfl, rfl⟩
theorem rorZpx (b2 : Byte) : Statement (.rorZpx b2) := fun _ => ⟨_, _, rfl, rfl⟩
theorem rorAbsx (addr : Addr) : Statement (.rorAbsx addr) := fun _ => ⟨_, _, rfl, rfl⟩
theorem jmpAbs (target : Addr) : Statement (.jmpAbs target) := fun _ => ⟨_, _, rfl, rfl⟩
theorem jmpInd (ptr : Addr) : Statement (.jmpInd ptr) := fun _ => ⟨_, _, rfl, rfl⟩
theorem jsr (target : Addr) : Statement (.jsr target) := fun _ => ⟨_, _, rfl, rfl⟩
theorem rts : Statement (.rts) := fun _ => ⟨_, _, rfl, rfl⟩
theorem bpl (b2 : Byte) : Statement (.bpl b2) := fun _ => ⟨_, _, rfl, rfl⟩
theorem bmi (b2 : Byte) : Statement (.bmi b2) := fun _ => ⟨_, _, rfl, rfl⟩
theorem bvc (b2 : Byte) : Statement (.bvc b2) := fun _ => ⟨_, _, rfl, rfl⟩
theorem bvs (b2 : Byte) : Statement (.bvs b2) := fun _ => ⟨_, _, rfl, rfl⟩
theorem bcc (b2 : Byte) : Statement (.bcc b2) := fun _ => ⟨_, _, rfl, rfl⟩
theorem bcs (b2 : Byte) : Statement (.bcs b2) := fun _ => ⟨_, _, rfl, rfl⟩
theorem bne (b2 : Byte) : Statement (.bne b2) := fun _ => ⟨_, _, rfl, rfl⟩
theorem beq (b2 : Byte) : Statement (.beq b2) := fun _ => ⟨_, _, rfl, rfl⟩
theorem pha : Statement (.pha) := fun _ => ⟨_, _, rfl, rfl⟩
theorem pla : Statement (.pla) := fun _ => ⟨_, _, rfl, rfl⟩
theorem php : Statement (.php) := fun _ => ⟨_, _, rfl, rfl⟩
theorem plp : Statement (.plp) := fun _ => ⟨_, _, rfl, rfl⟩
theorem clc : Statement (.clc) := fun _ => ⟨_, _, rfl, rfl⟩
theorem sec : Statement (.sec) := fun _ => ⟨_, _, rfl, rfl⟩
theorem cli : Statement (.cli) := fun _ => ⟨_, _, rfl, rfl⟩
theorem sei : Statement (.sei) := fun _ => ⟨_, _, rfl, rfl⟩
theorem cld : Statement (.cld) := fun _ => ⟨_, _, rfl, rfl⟩
theorem sed : Statement (.sed) := fun _ => ⟨_, _, rfl, rfl⟩
theorem clv : Statement (.clv) := fun _ => ⟨_, _, rfl, rfl⟩
theorem nop : Statement (.nop) := fun _ => ⟨_, _, rfl, rfl⟩
theorem brk : Statement (.brk) := fun _ => ⟨_, _, rfl, rfl⟩
theorem rti : Statement (.rti) := fun _ => ⟨_, _, rfl, rfl⟩

theorem undefined (op : Byte) : Statement (.undefined op) := by
  intro h
  exact ⟨op, [], rfl, operandBytes_undefined op (by simpa [Instr.wellFormed] using h)⟩

end Sys2Proof.Laws.Encoding
end

