-- ==== Sys2Proof/Laws/Stack.lean ====
section
/-! SUPPORT. The stack: where its bytes lie, that neighbouring stack bytes are different cells, what pushes leave in memory, what
pulls of plain cells give, and the vectors. -/

namespace Sys2Proof.Machine

/-! ## Where the stack bytes lie -/

theorem toNat_stackAddr (sp : Byte) : (stackAddr sp).toNat = 256 + sp.toNat := by
  revert sp
  decide

/-- Two addresses that differ mod a power of two no larger than 2^W are different cells. -/
theorem mask_ne_of_mod {s : State} {p q : Addr} {k : Nat} (hk : k ≤ s.cfg.addrWidth)
    (h : p.toNat % 2 ^ k ≠ q.toNat % 2 ^ k) : (s.mask p).toNat ≠ (s.mask q).toNat := by
  simp only [State.mask, toNat_maskTo]
  intro e
  apply h
  rw [← Nat.mod_mod_of_dvd p.toNat (Nat.pow_dvd_pow 2 hk), e, Nat.mod_mod_of_dvd _ (Nat.pow_dvd_pow 2 hk)]

theorem stackAddr_mod_two (sp : Byte) : (stackAddr sp).toNat % 2 ^ 1 ≠ (stackAddr (sp - 1#8)).toNat % 2 ^ 1 := by
  revert sp
  decide

theorem stackAddr_mod_four (sp : Byte) : (stackAddr sp).toNat % 2 ^ 2 ≠ (stackAddr (sp - 1#8 - 1#8)).toNat % 2 ^ 2 := by
  revert sp
  decide

/-- Neighbouring stack bytes are different cells for every bus width of R1. -/
theorem stack_cells_ne {s : State} (h : 1 ≤ s.cfg.addrWidth) (sp : Byte) :
    (s.mask (stackAddr sp)).toNat ≠ (s.mask (stackAddr (sp - 1#8))).toNat :=
  mask_ne_of_mod h (stackAddr_mod_two sp)

/-- Stack bytes two apart are different cells when W is at least 2. -/
theorem stack_cells_ne_two {s : State} (h : 2 ≤ s.cfg.addrWidth) (sp : Byte) :
    (s.mask (stackAddr sp)).toNat ≠ (s.mask (stackAddr (sp - 1#8 - 1#8))).toNat :=
  mask_ne_of_mod h (stackAddr_mod_four sp)

/-! ## What pushes leave in memory -/

theorem push_bus (v : Byte) (s : State) : (push v s).bus = s.bus ++ [.write (s.mask (stackAddr s.sp)) v] := rfl

theorem push_read_same {v : Byte} {s : State} (hm : s.mem.wf = true) (h : s.kindAt (s.mask (stackAddr s.sp)) = .ram) :
    (push v s).mem.read (s.mask (stackAddr s.sp)).toNat = v :=
  busWrite_read_same hm h

theorem push_read_other {v : Byte} {s : State} {k : Nat} (hp : s.kindAt (s.mask (stackAddr s.sp)) ≠ .device)
    (h : (s.mask (stackAddr s.sp)).toNat ≠ k) : (push v s).mem.read k = s.mem.read k :=
  busWrite_read_other hp h

theorem push_kindAt {v : Byte} {s : State} (h : s.kindAt (s.mask (stackAddr s.sp)) ≠ .device) (q : Addr) :
    (push v s).kindAt q = s.kindAt q :=
  busWrite_kindAt h q

theorem pushWord_bus (w : Addr) (s : State) :
    (pushWord w s).bus = s.bus ++
      [.write (s.mask (stackAddr s.sp)) (hiByte w), .write (s.mask (stackAddr (s.sp - 1#8))) (loByte w)] :=
  (pushWord_does w s).bus

/-- A word pushed to plain cells: its high byte at the first stack byte, where that is RAM (R14, R51). -/
theorem pushWord_read_hi {w : Addr} {s : State} (hw : 1 ≤ s.cfg.addrWidth) (hm : s.mem.wf = true)
    (h : s.kindAt (s.mask (stackAddr s.sp)) = .ram) (h' : s.kindAt (s.mask (stackAddr (s.sp - 1#8))) ≠ .device) :
    (pushWord w s).mem.read (s.mask (stackAddr s.sp)).toNat = hiByte w := by
  have e := (pushWord_does w s).plat.read_ram (by simpa [BusAccess.addr] using ⟨by rw [← State.kindAt, h]; decide, h'⟩) hm h
  simpa [lastWrite, BitVec.toNat_eq, (stack_cells_ne hw s.sp).symm] using e

/-- Its low byte at the next. -/
theorem pushWord_read_lo {w : Addr} {s : State} (hm : s.mem.wf = true)
    (h : s.kindAt (s.mask (stackAddr s.sp)) ≠ .device) (h' : s.kindAt (s.mask (stackAddr (s.sp - 1#8))) = .ram) :
    (pushWord w s).mem.read (s.mask (stackAddr (s.sp - 1#8))).toNat = loByte w := by
  have e := (pushWord_does w s).plat.read_ram (by simpa [BusAccess.addr] using ⟨h, by rw [← State.kindAt, h']; decide⟩) hm h'
  simpa [lastWrite] using e

/-! ## What pulls give -/

theorem pull_bus (s : State) :
    (pull s).2.bus = s.bus ++ [.read .data (s.mask (stackAddr (s.sp + 1#8))) (pull s).1] := rfl

/-- Pulling a word from plain cells: low byte first (R15, R51). -/
theorem pullWord_plain {s : State} (h1 : s.kindAt (s.mask (stackAddr (s.sp + 1#8))) ≠ .device)
    (h2 : s.kindAt (s.mask (stackAddr (s.sp + 1#8 + 1#8))) ≠ .device) :
    (pullWord s).1 =
      wordOf (s.mem.read (s.mask (stackAddr (s.sp + 1#8 + 1#8))).toNat)
        (s.mem.read (s.mask (stackAddr (s.sp + 1#8))).toNat) := by
  simp only [pullWord, pull_plain h1]
  rw [pull_plain (by exact h2)]
  rfl

/-! ## The vectors -/

/-- A vector read from a plain cell (R49). -/
theorem readVector_plain {w : Addr} {s : State} (h : s.kindAt (s.mask w) ≠ .device) :
    readVector w s =
      (s.mem.read (s.mask w).toNat,
        { s with bus := s.bus ++ [.read .vector (s.mask w) (s.mem.read (s.mask w).toNat)] }) :=
  busRead_plain (by decide) h

/-- The word of a vector in plain cells, low byte first (R236). -/
theorem readVectorWord_plain {w : Addr} {s : State} (h1 : s.kindAt (s.mask w) ≠ .device)
    (h2 : s.kindAt (s.mask (w + 1#16)) ≠ .device) :
    (readVectorWord w s).1 =
      wordOf (s.mem.read (s.mask (w + 1#16)).toNat) (s.mem.read (s.mask w).toNat) := by
  simp only [readVectorWord, readVector_plain h1]
  rw [readVector_plain (by exact h2)]
  rfl

/-- An entry whose accesses are of plain cells (R236): `PC` is the word its vector holds after the pushes. -/
theorem raiseInterrupt_pc_plain {k : InterruptKind} {s : State} (h : OnlyPlain s (raiseInterrupt k s)) :
    (raiseInterrupt k s).pc =
      s.mask (wordOf ((raiseInterrupt k s).mem.read (s.mask (vectorAddr k + 1#16)).toNat)
        ((raiseInterrupt k s).mem.read (s.mask (vectorAddr k)).toNat)) := by
  obtain ⟨lo, hi, hd, hpc⟩ := raiseInterrupt_does k s
  have hp := hd.onlyPlain.1 h
  have hl := hd.plat.read_value (l := [_, _, _]) hp (by decide) (by simp)
  have hh := hd.plat.read_value (l := [_, _, _, _]) hp (by decide) (by simp)
  rw [hpc, hl, hh]

end Sys2Proof.Machine
end

