-- ==== Sys2Proof/Tests/Slice0.lean ====
section
/-! SUPPORT. This package's own tests: ill-formed terms refused, the decoding of every constructor from the bytes R75 gives it,
single steps with the results of spec/95_test_vectors.md, and a witness for the hypotheses of every statement that has
some. -/

namespace Sys2Proof.Tests

open Sys2Proof.Machine

/-! ## Well-formedness -/

/-- A documented opcode byte is no undefined one (R76). -/
theorem test_wf_undefined_documented_byte : (Instr.undefined 0xA9#8).wellFormed = false := by decide

theorem test_wf_undefined_byte : (Instr.undefined 0x02#8).wellFormed = true := by decide

/-- Every operand value is admitted (R73, R222). -/
theorem test_wf_operands : (Instr.ldaImm 0x02#8).wellFormed = true ∧ (Instr.jmpInd 0x02FF#16).wellFormed = true := by
  decide

/-- W is 1 to 16 (R1). -/
theorem test_wf_width :
    (Config.narrowBus 0).wellFormed = false ∧ (Config.narrowBus 17).wellFormed = false ∧
      (Config.narrowBus 1).wellFormed = true ∧ (Config.narrowBus 16).wellFormed = true := by decide

/-- A table total on the undefined bytes. -/
def totalTable (e : UndefEntry) : UndefPolicy := .table (undefinedOpcodes.map fun op => (op, e))

/-- A supplied table is total on the 105 bytes (R221). -/
theorem test_wf_table :
    ({ Config.normalBus with undefPolicy := .table [(0x02#8, .jam)] } : Config).wellFormed = false ∧
      ({ Config.normalBus with undefPolicy := totalTable .jam } : Config).wellFormed = true := by decide

theorem test_undefined_count : undefinedOpcodes.length = 105 := by decide

/-! ## Decoding, every constructor from its bytes in R75 -/

/-- The bytes decode to the instruction, nothing left over. -/
def decodesTo (c : List Byte × Instr) : Bool :=
  match decode c.1 with
  | .ok i [] => decide (i = c.2)
  | _ => false

theorem test_decode_flags_system :
    ([
      ([0x00#8], .brk), ([0x18#8], .clc), ([0x38#8], .sec), ([0x40#8], .rti), ([0x58#8], .cli), ([0x78#8], .sei),
      ([0xB8#8], .clv), ([0xD8#8], .cld), ([0xEA#8], .nop), ([0xF8#8], .sed)
    ] : List (List Byte × Instr)).all decodesTo = true := by decide

theorem test_decode_logic_shift_1 :
    ([
      ([0x01#8, 0x5A#8], .oraIndx 0x5A#8), ([0x05#8, 0x5A#8], .oraZp 0x5A#8), ([0x06#8, 0x5A#8], .aslZp 0x5A#8),
      ([0x09#8, 0x5A#8], .oraImm 0x5A#8), ([0x0A#8], .aslAcc), ([0x0D#8, 0x34#8, 0x12#8], .oraAbs 0x1234#16),
      ([0x0E#8, 0x34#8, 0x12#8], .aslAbs 0x1234#16), ([0x11#8, 0x5A#8], .oraIndy 0x5A#8),
      ([0x15#8, 0x5A#8], .oraZpx 0x5A#8), ([0x16#8, 0x5A#8], .aslZpx 0x5A#8),
      ([0x19#8, 0x34#8, 0x12#8], .oraAbsy 0x1234#16), ([0x1D#8, 0x34#8, 0x12#8], .oraAbsx 0x1234#16),
      ([0x1E#8, 0x34#8, 0x12#8], .aslAbsx 0x1234#16), ([0x21#8, 0x5A#8], .andIndx 0x5A#8),
      ([0x24#8, 0x5A#8], .bitZp 0x5A#8), ([0x25#8, 0x5A#8], .andZp 0x5A#8), ([0x26#8, 0x5A#8], .rolZp 0x5A#8),
      ([0x29#8, 0x5A#8], .andImm 0x5A#8), ([0x2A#8], .rolAcc), ([0x2C#8, 0x34#8, 0x12#8], .bitAbs 0x1234#16),
      ([0x2D#8, 0x34#8, 0x12#8], .andAbs 0x1234#16), ([0x2E#8, 0x34#8, 0x12#8], .rolAbs 0x1234#16),
      ([0x31#8, 0x5A#8], .andIndy 0x5A#8), ([0x35#8, 0x5A#8], .andZpx 0x5A#8), ([0x36#8, 0x5A#8], .rolZpx 0x5A#8),
      ([0x39#8, 0x34#8, 0x12#8], .andAbsy 0x1234#16)
    ] : List (List Byte × Instr)).all decodesTo = true := by decide

theorem test_decode_logic_shift_2 :
    ([
      ([0x3D#8, 0x34#8, 0x12#8], .andAbsx 0x1234#16), ([0x3E#8, 0x34#8, 0x12#8], .rolAbsx 0x1234#16),
      ([0x41#8, 0x5A#8], .eorIndx 0x5A#8), ([0x45#8, 0x5A#8], .eorZp 0x5A#8), ([0x46#8, 0x5A#8], .lsrZp 0x5A#8),
      ([0x49#8, 0x5A#8], .eorImm 0x5A#8), ([0x4A#8], .lsrAcc), ([0x4D#8, 0x34#8, 0x12#8], .eorAbs 0x1234#16),
      ([0x4E#8, 0x34#8, 0x12#8], .lsrAbs 0x1234#16), ([0x51#8, 0x5A#8], .eorIndy 0x5A#8),
      ([0x55#8, 0x5A#8], .eorZpx 0x5A#8), ([0x56#8, 0x5A#8], .lsrZpx 0x5A#8),
      ([0x59#8, 0x34#8, 0x12#8], .eorAbsy 0x1234#16), ([0x5D#8, 0x34#8, 0x12#8], .eorAbsx 0x1234#16),
      ([0x5E#8, 0x34#8, 0x12#8], .lsrAbsx 0x1234#16), ([0x66#8, 0x5A#8], .rorZp 0x5A#8), ([0x6A#8], .rorAcc),
      ([0x6E#8, 0x34#8, 0x12#8], .rorAbs 0x1234#16), ([0x76#8, 0x5A#8], .rorZpx 0x5A#8),
      ([0x7E#8, 0x34#8, 0x12#8], .rorAbsx 0x1234#16)
    ] : List (List Byte × Instr)).all decodesTo = true := by decide

theorem test_decode_stack :
    ([
      ([0x08#8], .php), ([0x28#8], .plp), ([0x48#8], .pha), ([0x68#8], .pla)
    ] : List (List Byte × Instr)).all decodesTo = true := by decide

theorem test_decode_control_flow :
    ([
      ([0x10#8, 0x5A#8], .bpl 0x5A#8), ([0x20#8, 0x34#8, 0x12#8], .jsr 0x1234#16), ([0x30#8, 0x5A#8], .bmi 0x5A#8),
      ([0x4C#8, 0x34#8, 0x12#8], .jmpAbs 0x1234#16), ([0x50#8, 0x5A#8], .bvc 0x5A#8), ([0x60#8], .rts),
      ([0x6C#8, 0x34#8, 0x12#8], .jmpInd 0x1234#16), ([0x70#8, 0x5A#8], .bvs 0x5A#8),
      ([0x90#8, 0x5A#8], .bcc 0x5A#8), ([0xB0#8, 0x5A#8], .bcs 0x5A#8), ([0xD0#8, 0x5A#8], .bne 0x5A#8),
      ([0xF0#8, 0x5A#8], .beq 0x5A#8)
    ] : List (List Byte × Instr)).all decodesTo = true := by decide

theorem test_decode_arithmetic_1 :
    ([
      ([0x61#8, 0x5A#8], .adcIndx 0x5A#8), ([0x65#8, 0x5A#8], .adcZp 0x5A#8), ([0x69#8, 0x5A#8], .adcImm 0x5A#8),
      ([0x6D#8, 0x34#8, 0x12#8], .adcAbs 0x1234#16), ([0x71#8, 0x5A#8], .adcIndy 0x5A#8),
      ([0x75#8, 0x5A#8], .adcZpx 0x5A#8), ([0x79#8, 0x34#8, 0x12#8], .adcAbsy 0x1234#16),
      ([0x7D#8, 0x34#8, 0x12#8], .adcAbsx 0x1234#16), ([0x88#8], .dey), ([0xC0#8, 0x5A#8], .cpyImm 0x5A#8),
      ([0xC1#8, 0x5A#8], .cmpIndx 0x5A#8), ([0xC4#8, 0x5A#8], .cpyZp 0x5A#8), ([0xC5#8, 0x5A#8], .cmpZp 0x5A#8),
      ([0xC6#8, 0x5A#8], .decZp 0x5A#8), ([0xC8#8], .iny), ([0xC9#8, 0x5A#8], .cmpImm 0x5A#8), ([0xCA#8], .dex),
      ([0xCC#8, 0x34#8, 0x12#8], .cpyAbs 0x1234#16), ([0xCD#8, 0x34#8, 0x12#8], .cmpAbs 0x1234#16),
      ([0xCE#8, 0x34#8, 0x12#8], .decAbs 0x1234#16), ([0xD1#8, 0x5A#8], .cmpIndy 0x5A#8),
      ([0xD5#8, 0x5A#8], .cmpZpx 0x5A#8), ([0xD6#8, 0x5A#8], .decZpx 0x5A#8),
      ([0xD9#8, 0x34#8, 0x12#8], .cmpAbsy 0x1234#16), ([0xDD#8, 0x34#8, 0x12#8], .cmpAbsx 0x1234#16),
      ([0xDE#8, 0x34#8, 0x12#8], .decAbsx 0x1234#16)
    ] : List (List Byte × Instr)).all decodesTo = true := by decide

theorem test_decode_arithmetic_2 :
    ([
      ([0xE0#8, 0x5A#8], .cpxImm 0x5A#8), ([0xE1#8, 0x5A#8], .sbcIndx 0x5A#8), ([0xE4#8, 0x5A#8], .cpxZp 0x5A#8),
      ([0xE5#8, 0x5A#8], .sbcZp 0x5A#8), ([0xE6#8, 0x5A#8], .incZp 0x5A#8), ([0xE8#8], .inx),
      ([0xE9#8, 0x5A#8], .sbcImm 0x5A#8), ([0xEC#8, 0x34#8, 0x12#8], .cpxAbs 0x1234#16),
      ([0xED#8, 0x34#8, 0x12#8], .sbcAbs 0x1234#16), ([0xEE#8, 0x34#8, 0x12#8], .incAbs 0x1234#16),
      ([0xF1#8, 0x5A#8], .sbcIndy 0x5A#8), ([0xF5#8, 0x5A#8], .sbcZpx 0x5A#8), ([0xF6#8, 0x5A#8], .incZpx 0x5A#8),
      ([0xF9#8, 0x34#8, 0x12#8], .sbcAbsy 0x1234#16), ([0xFD#8, 0x34#8, 0x12#8], .sbcAbsx 0x1234#16),
      ([0xFE#8, 0x34#8, 0x12#8], .incAbsx 0x1234#16)
    ] : List (List Byte × Instr)).all decodesTo = true := by decide

theorem test_decode_load_store_transfer_1 :
    ([
      ([0x81#8, 0x5A#8], .staIndx 0x5A#8), ([0x84#8, 0x5A#8], .styZp 0x5A#8), ([0x85#8, 0x5A#8], .staZp 0x5A#8),
      ([0x86#8, 0x5A#8], .stxZp 0x5A#8), ([0x8A#8], .txa), ([0x8C#8, 0x34#8, 0x12#8], .styAbs 0x1234#16),
      ([0x8D#8, 0x34#8, 0x12#8], .staAbs 0x1234#16), ([0x8E#8, 0x34#8, 0x12#8], .stxAbs 0x1234#16),
      ([0x91#8, 0x5A#8], .staIndy 0x5A#8), ([0x94#8, 0x5A#8], .styZpx 0x5A#8), ([0x95#8, 0x5A#8], .staZpx 0x5A#8),
      ([0x96#8, 0x5A#8], .stxZpy 0x5A#8), ([0x98#8], .tya), ([0x99#8, 0x34#8, 0x12#8], .staAbsy 0x1234#16),
      ([0x9A#8], .txs), ([0x9D#8, 0x34#8, 0x12#8], .staAbsx 0x1234#16), ([0xA0#8, 0x5A#8], .ldyImm 0x5A#8),
      ([0xA1#8, 0x5A#8], .ldaIndx 0x5A#8), ([0xA2#8, 0x5A#8], .ldxImm 0x5A#8), ([0xA4#8, 0x5A#8], .ldyZp 0x5A#8),
      ([0xA5#8, 0x5A#8], .ldaZp 0x5A#8), ([0xA6#8, 0x5A#8], .ldxZp 0x5A#8), ([0xA8#8], .tay),
      ([0xA9#8, 0x5A#8], .ldaImm 0x5A#8), ([0xAA#8], .tax), ([0xAC#8, 0x34#8, 0x12#8], .ldyAbs 0x1234#16)
    ] : List (List Byte × Instr)).all decodesTo = true := by decide

theorem test_decode_load_store_transfer_2 :
    ([
      ([0xAD#8, 0x34#8, 0x12#8], .ldaAbs 0x1234#16), ([0xAE#8, 0x34#8, 0x12#8], .ldxAbs 0x1234#16),
      ([0xB1#8, 0x5A#8], .ldaIndy 0x5A#8), ([0xB4#8, 0x5A#8], .ldyZpx 0x5A#8), ([0xB5#8, 0x5A#8], .ldaZpx 0x5A#8),
      ([0xB6#8, 0x5A#8], .ldxZpy 0x5A#8), ([0xB9#8, 0x34#8, 0x12#8], .ldaAbsy 0x1234#16), ([0xBA#8], .tsx),
      ([0xBC#8, 0x34#8, 0x12#8], .ldyAbsx 0x1234#16), ([0xBD#8, 0x34#8, 0x12#8], .ldaAbsx 0x1234#16),
      ([0xBE#8, 0x34#8, 0x12#8], .ldxAbsy 0x1234#16)
    ] : List (List Byte × Instr)).all decodesTo = true := by decide

/-- One word of each family, bit by bit (R74, R75). -/
theorem test_decode_bits :
    ([([0b10101001#8, 0b01111111#8], .ldaImm 0x7F#8), ([0b01101101#8, 0b00000001#8, 0b00000010#8], .adcAbs 0x0201#16),
      ([0b01101010#8], .rorAcc), ([0b11010000#8, 0b11111011#8], .bne 0xFB#8), ([0b01101000#8], .pla), ([0b01000000#8], .rti),
      ([0b11111111#8], .undefined 0xFF#8)] : List (List Byte × Instr)).all decodesTo = true := by decide

/-- The 105 bytes of R76 decode as undefined (R72). -/
theorem test_decode_undefined : (undefinedOpcodes.map fun op => ([op], Instr.undefined op)).all decodesTo = true := by decide

/-- A second byte is taken as an operand, not as an opcode (R222, TV-UD-4). -/
theorem test_decode_operand_is_no_opcode : decode [0xA9#8, 0x02#8, 0x02#8] = .ok (.ldaImm 0x02#8) [0x02#8] := by decide

/-- Too few bytes are refused by name. -/
theorem test_decode_short :
    (match decode [0xAD#8, 0x00#8] with | .ok _ _ => false | .error _ => true) = true ∧
      (match decode [] with | .ok _ _ => false | .error _ => true) = true := by decide

theorem test_decode_table_word :
    decodeTableWord 24 0xC12320 = some (.jsr 0xC123#16) ∧ decodeTableWord 8 0xAD = some (.ldaAbs 0) ∧
      decodeTableWord 8 0x02 = some (.undefined 0x02#8) := by decide

/-! ## Single steps -/

/-- The start of the vectors of spec/95_test_vectors.md: `PC` 0x0600, `SP` 0xFF, every flag 0. -/
def base : State :=
  { State.reset with pc := 0x0600#16, sp := 0xFF#8, p := ⟨false, false, false, false, false, false⟩ }

/-- A variant without decimal mode. -/
def binaryOnly : Config := { Config.normalBus with decimalEnabled := false }

/-- Memory cells before a step. -/
def withCells (s : State) (cells : List (Nat × Byte)) : State :=
  { s with plat.mem := cells.foldl (fun m c => m.write c.1 c.2) s.mem }

/-- The packed status byte read as flags. -/
def fl (v : Byte) : Flags := unpackP v

/-- The accesses of a step without the fetches of its own bytes. -/
def dataAccesses (t : State) : List BusAccess :=
  t.bus.filter fun c =>
    match c with
    | .read .opcode _ _ => false
    | .read .operand _ _ => false
    | _ => true

/-- A view of the state after one step. -/
def after {α : Type} (s : State) (f : State → α) : Option α :=
  match step s with
  | .next t => some (f t)
  | _ => none

/-- What a vector lists of the end state: the registers, the packed status byte, `PC`, the reported count. -/
structure Regs where
  a : Byte
  x : Byte
  y : Byte
  sp : Byte
  p : Byte
  pc : Addr
  cycles : Nat
  deriving DecidableEq, Repr

/-- One instruction placed at `PC`: the registers after its step. -/
def regsAfter (s : State) (code : List Byte) : Option Regs :=
  after (s.placeBytes s.pc code) fun t => ⟨t.a, t.x, t.y, t.sp, t.statusByte, t.pc, t.reported⟩

/-- The data accesses of one instruction placed at `PC`. -/
def accessesAfter (s : State) (code : List Byte) : Option (List BusAccess) :=
  after (s.placeBytes s.pc code) dataAccesses

/-! ### Addressing modes, loads, stores, transfers -/

/-- TV-AM-3: LDA $F0,X. -/
theorem test_am_3 :
    regsAfter (withCells { base with x := 0x20#8 } [(0x0010, 0x34#8), (0x0110, 0x99#8)]) [0xB5#8, 0xF0#8] =
      some ⟨0x34#8, 0x20#8, 0x00#8, 0xFF#8, 0x30#8, 0x0602#16, 4⟩ := by decide

/-- TV-AM-6: LDA $C123. -/
theorem test_am_6 :
    regsAfter (withCells base [(0xC123, 0x00#8)]) [0xAD#8, 0x23#8, 0xC1#8] =
      some ⟨0x00#8, 0x00#8, 0x00#8, 0xFF#8, 0x32#8, 0x0603#16, 4⟩ := by decide

/-- TV-AM-7: LDA $C123 (W=13). -/
theorem test_am_7 :
    regsAfter (withCells { base with cfg := Config.narrowBus 13 } [(0x0123, 0x77#8)]) [0xAD#8, 0x23#8, 0xC1#8] =
      some ⟨0x77#8, 0x00#8, 0x00#8, 0xFF#8, 0x30#8, 0x0603#16, 4⟩ := by decide

/-- TV-AM-9: LDA $12F0,X. -/
theorem test_am_9 :
    regsAfter (withCells { base with x := 0x20#8 } [(0x1310, 0x02#8)]) [0xBD#8, 0xF0#8, 0x12#8] =
      some ⟨0x02#8, 0x20#8, 0x00#8, 0xFF#8, 0x30#8, 0x0603#16, 5⟩ := by decide

/-- TV-AM-10: LDA $FFFF,Y. -/
theorem test_am_10 :
    regsAfter (withCells { base with y := 0x02#8 } [(0x0001, 0x03#8)]) [0xB9#8, 0xFF#8, 0xFF#8] =
      some ⟨0x03#8, 0x00#8, 0x02#8, 0xFF#8, 0x30#8, 0x0603#16, 5⟩ := by decide

/-- TV-AM-13: LDA ($FE,X). -/
theorem test_am_13 :
    regsAfter (withCells { base with x := 0x01#8 } [(0x00FF, 0x34#8), (0x0000, 0x12#8), (0x0100, 0x99#8),
      (0x1234, 0x06#8)]) [0xA1#8, 0xFE#8] =
        some ⟨0x06#8, 0x01#8, 0x00#8, 0xFF#8, 0x30#8, 0x0602#16, 6⟩ ∧
      accessesAfter (withCells { base with x := 0x01#8 } [(0x00FF, 0x34#8), (0x0000, 0x12#8), (0x0100, 0x99#8),
      (0x1234, 0x06#8)]) [0xA1#8, 0xFE#8] =
        some [.read .data 0x00FF#16 0x34#8, .read .data 0x0000#16 0x12#8, .read .data 0x1234#16 0x06#8] := by decide

/-- TV-AM-15: LDA ($86),Y. -/
theorem test_am_15 :
    regsAfter (withCells { base with y := 0xE0#8 } [(0x0086, 0x28#8), (0x0087, 0x40#8), (0x4108,
      0x08#8)]) [0xB1#8, 0x86#8] =
      some ⟨0x08#8, 0x00#8, 0xE0#8, 0xFF#8, 0x30#8, 0x0602#16, 6⟩ := by decide

/-- TV-AM-18: STA ($86),Y. -/
theorem test_am_18 :
    regsAfter (withCells { base with a := 0xBB#8, y := 0xE0#8 } [(0x0086, 0x28#8), (0x0087, 0x40#8)]) [0x91#8,
      0x86#8] =
        some ⟨0xBB#8, 0x00#8, 0xE0#8, 0xFF#8, 0x30#8, 0x0602#16, 6⟩ ∧
      accessesAfter (withCells { base with a := 0xBB#8, y := 0xE0#8 } [(0x0086, 0x28#8), (0x0087,
      0x40#8)]) [0x91#8, 0x86#8] =
        some [.read .data 0x0086#16 0x28#8, .read .data 0x0087#16 0x40#8, .write 0x4108#16 0xBB#8] := by decide

/-- TV-AM-20: JMP ($02FF). -/
theorem test_am_20 :
    regsAfter (withCells base [(0x02FF, 0x34#8), (0x0200, 0x12#8), (0x0300, 0x99#8)]) [0x6C#8, 0xFF#8, 0x02#8] =
        some ⟨0x00#8, 0x00#8, 0x00#8, 0xFF#8, 0x30#8, 0x1234#16, 5⟩ ∧
      accessesAfter (withCells base [(0x02FF, 0x34#8), (0x0200, 0x12#8), (0x0300, 0x99#8)]) [0x6C#8, 0xFF#8, 0x02#8] =
        some [.read .data 0x02FF#16 0x34#8, .read .data 0x0200#16 0x12#8] := by decide

/-- TV-LS-3: LDX #$FF. -/
theorem test_ls_3 :
    regsAfter base [0xA2#8, 0xFF#8] =
      some ⟨0x00#8, 0xFF#8, 0x00#8, 0xFF#8, 0xB0#8, 0x0602#16, 2⟩ := by decide

/-- TV-LS-4: LDY $10. -/
theorem test_ls_4 :
    regsAfter (withCells { base with y := 0xFF#8, p := fl 0xB0#8 } [(0x0010, 0x7F#8)]) [0xA4#8, 0x10#8] =
      some ⟨0x00#8, 0x00#8, 0x7F#8, 0xFF#8, 0x30#8, 0x0602#16, 3⟩ := by decide

/-- TV-LS-5: STA $0200. -/
theorem test_ls_5 :
    regsAfter { base with a := 0x42#8, p := fl 0xB3#8 } [0x8D#8, 0x00#8, 0x02#8] =
      some ⟨0x42#8, 0x00#8, 0x00#8, 0xFF#8, 0xB3#8, 0x0603#16, 4⟩ := by decide

/-- TV-LS-6: STX $F0,Y. -/
theorem test_ls_6 :
    regsAfter { base with x := 0x11#8, y := 0x20#8 } [0x96#8, 0xF0#8] =
        some ⟨0x00#8, 0x11#8, 0x20#8, 0xFF#8, 0x30#8, 0x0602#16, 4⟩ ∧
      accessesAfter { base with x := 0x11#8, y := 0x20#8 } [0x96#8, 0xF0#8] =
        some [.write 0x0010#16 0x11#8] := by decide

/-- TV-LS-7: STY $02. -/
theorem test_ls_7 :
    regsAfter base [0x84#8, 0x02#8] =
      some ⟨0x00#8, 0x00#8, 0x00#8, 0xFF#8, 0x30#8, 0x0602#16, 3⟩ := by decide

/-- TV-LS-8: TAX. -/
theorem test_ls_8 :
    regsAfter { base with a := 0x80#8 } [0xAA#8] =
      some ⟨0x80#8, 0x80#8, 0x00#8, 0xFF#8, 0xB0#8, 0x0601#16, 2⟩ := by decide

/-- TV-LS-9: TAY. -/
theorem test_ls_9 :
    regsAfter { base with y := 0x33#8 } [0xA8#8] =
      some ⟨0x00#8, 0x00#8, 0x00#8, 0xFF#8, 0x32#8, 0x0601#16, 2⟩ := by decide

/-- TV-LS-10: TXA. -/
theorem test_ls_10 :
    regsAfter { base with a := 0x80#8, x := 0x7F#8, p := fl 0xB0#8 } [0x8A#8] =
      some ⟨0x7F#8, 0x7F#8, 0x00#8, 0xFF#8, 0x30#8, 0x0601#16, 2⟩ := by decide

/-- TV-LS-11: TYA. -/
theorem test_ls_11 :
    regsAfter { base with y := 0xFF#8 } [0x98#8] =
      some ⟨0xFF#8, 0x00#8, 0xFF#8, 0xFF#8, 0xB0#8, 0x0601#16, 2⟩ := by decide

/-- TV-LS-12: TSX. -/
theorem test_ls_12 :
    regsAfter { base with sp := 0xFD#8 } [0xBA#8] =
      some ⟨0x00#8, 0xFD#8, 0x00#8, 0xFD#8, 0xB0#8, 0x0601#16, 2⟩ := by decide

/-- TV-LS-13: TXS. -/
theorem test_ls_13 :
    regsAfter { base with sp := 0xFD#8, p := fl 0xB0#8 } [0x9A#8] =
      some ⟨0x00#8, 0x00#8, 0x00#8, 0x00#8, 0xB0#8, 0x0601#16, 2⟩ := by decide

/-! ### Arithmetic -/

/-- TV-ADC-9: ADC #$90. -/
theorem test_adc_9 :
    regsAfter { base with a := 0xD0#8 } [0x69#8, 0x90#8] =
      some ⟨0x60#8, 0x00#8, 0x00#8, 0xFF#8, 0x71#8, 0x0602#16, 2⟩ := by decide

/-- TV-SBC-8: SBC #$30. -/
theorem test_sbc_8 :
    regsAfter { base with a := 0x50#8 } [0xE9#8, 0x30#8] =
      some ⟨0x1F#8, 0x00#8, 0x00#8, 0xFF#8, 0x31#8, 0x0602#16, 2⟩ := by decide

/-- TV-DEC-1: ADC #$46. -/
theorem test_dec_1 :
    regsAfter { base with a := 0x58#8, p := fl 0x39#8 } [0x69#8, 0x46#8] =
      some ⟨0x05#8, 0x00#8, 0x00#8, 0xFF#8, 0xF9#8, 0x0602#16, 2⟩ := by decide

/-- TV-DEC-12: SBC #$01. -/
theorem test_dec_12 :
    regsAfter { base with p := fl 0x39#8 } [0xE9#8, 0x01#8] =
      some ⟨0x99#8, 0x00#8, 0x00#8, 0xFF#8, 0xB8#8, 0x0602#16, 2⟩ := by decide

/-- TV-DECOFF-1: ADC #$46 (DECIMAL_ENABLED=false). -/
theorem test_decoff_1 :
    regsAfter { base with a := 0x58#8, p := fl 0x39#8, cfg := binaryOnly } [0x69#8, 0x46#8] =
      some ⟨0x9F#8, 0x00#8, 0x00#8, 0xFF#8, 0xF8#8, 0x0602#16, 2⟩ := by decide

/-- TV-CMP-5: CMP #$80. -/
theorem test_cmp_5 :
    regsAfter { base with a := 0x7F#8, p := fl 0x70#8 } [0xC9#8, 0x80#8] =
      some ⟨0x7F#8, 0x00#8, 0x00#8, 0xFF#8, 0xF0#8, 0x0602#16, 2⟩ := by decide

/-- TV-CMP-6: CPX #$05. -/
theorem test_cmp_6 :
    regsAfter { base with x := 0x05#8 } [0xE0#8, 0x05#8] =
      some ⟨0x00#8, 0x05#8, 0x00#8, 0xFF#8, 0x33#8, 0x0602#16, 2⟩ := by decide

/-- TV-CMP-7: CPY #$80. -/
theorem test_cmp_7 :
    regsAfter { base with y := 0x7F#8 } [0xC0#8, 0x80#8] =
      some ⟨0x00#8, 0x00#8, 0x7F#8, 0xFF#8, 0xB0#8, 0x0602#16, 2⟩ := by decide

/-- TV-CMP-8: INC $10. -/
theorem test_cmp_8 :
    regsAfter (withCells { base with p := fl 0x31#8 } [(0x0010, 0xFF#8)]) [0xE6#8, 0x10#8] =
        some ⟨0x00#8, 0x00#8, 0x00#8, 0xFF#8, 0x33#8, 0x0602#16, 5⟩ ∧
      accessesAfter (withCells { base with p := fl 0x31#8 } [(0x0010, 0xFF#8)]) [0xE6#8, 0x10#8] =
        some [.read .data 0x0010#16 0xFF#8, .write 0x0010#16 0x00#8] := by decide

/-- TV-CMP-11: DEC $02FF,X. -/
theorem test_cmp_11 :
    regsAfter (withCells { base with x := 0x01#8 } [(0x0300, 0x01#8)]) [0xDE#8, 0xFF#8, 0x02#8] =
      some ⟨0x00#8, 0x01#8, 0x00#8, 0xFF#8, 0x32#8, 0x0603#16, 7⟩ := by decide

/-- TV-CMP-12: INX. -/
theorem test_cmp_12 :
    regsAfter { base with x := 0xFF#8 } [0xE8#8] =
      some ⟨0x00#8, 0x00#8, 0x00#8, 0xFF#8, 0x32#8, 0x0601#16, 2⟩ := by decide

/-- TV-CMP-13: INY. -/
theorem test_cmp_13 :
    regsAfter { base with y := 0x7F#8 } [0xC8#8] =
      some ⟨0x00#8, 0x00#8, 0x80#8, 0xFF#8, 0xB0#8, 0x0601#16, 2⟩ := by decide

/-- TV-CMP-14: DEX. -/
theorem test_cmp_14 :
    regsAfter base [0xCA#8] =
      some ⟨0x00#8, 0xFF#8, 0x00#8, 0xFF#8, 0xB0#8, 0x0601#16, 2⟩ := by decide

/-- TV-CMP-15: DEY. -/
theorem test_cmp_15 :
    regsAfter { base with y := 0x01#8 } [0x88#8] =
      some ⟨0x00#8, 0x00#8, 0x00#8, 0xFF#8, 0x32#8, 0x0601#16, 2⟩ := by decide

/-! ### Logic and shifts -/

/-- TV-LG-1: AND #$0F. -/
theorem test_lg_1 :
    regsAfter { base with a := 0xF0#8, p := fl 0xB0#8 } [0x29#8, 0x0F#8] =
      some ⟨0x00#8, 0x00#8, 0x00#8, 0xFF#8, 0x32#8, 0x0602#16, 2⟩ := by decide

/-- TV-LG-2: ORA #$80. -/
theorem test_lg_2 :
    regsAfter { base with a := 0x01#8 } [0x09#8, 0x80#8] =
      some ⟨0x81#8, 0x00#8, 0x00#8, 0xFF#8, 0xB0#8, 0x0602#16, 2⟩ := by decide

/-- TV-LG-3: EOR #$FF. -/
theorem test_lg_3 :
    regsAfter { base with a := 0x55#8 } [0x49#8, 0xFF#8] =
      some ⟨0xAA#8, 0x00#8, 0x00#8, 0xFF#8, 0xB0#8, 0x0602#16, 2⟩ := by decide

/-- TV-LG-5: BIT $20. -/
theorem test_lg_5 :
    regsAfter (withCells { base with a := 0x01#8 } [(0x0020, 0xC0#8)]) [0x24#8, 0x20#8] =
      some ⟨0x01#8, 0x00#8, 0x00#8, 0xFF#8, 0xF2#8, 0x0602#16, 3⟩ := by decide

/-- TV-LG-8: ASL A. -/
theorem test_lg_8 :
    regsAfter { base with a := 0x81#8 } [0x0A#8] =
      some ⟨0x02#8, 0x00#8, 0x00#8, 0xFF#8, 0x31#8, 0x0601#16, 2⟩ := by decide

/-- TV-LG-10: ASL $10. -/
theorem test_lg_10 :
    regsAfter (withCells { base with p := fl 0x31#8 } [(0x0010, 0x40#8)]) [0x06#8, 0x10#8] =
      some ⟨0x00#8, 0x00#8, 0x00#8, 0xFF#8, 0xB0#8, 0x0602#16, 5⟩ := by decide

/-- TV-LG-11: LSR A. -/
theorem test_lg_11 :
    regsAfter { base with a := 0x03#8, p := fl 0xB0#8 } [0x4A#8] =
      some ⟨0x01#8, 0x00#8, 0x00#8, 0xFF#8, 0x31#8, 0x0601#16, 2⟩ := by decide

/-- TV-LG-13: ROL A. -/
theorem test_lg_13 :
    regsAfter { base with a := 0x40#8, p := fl 0x31#8 } [0x2A#8] =
      some ⟨0x81#8, 0x00#8, 0x00#8, 0xFF#8, 0xB0#8, 0x0601#16, 2⟩ := by decide

/-- TV-LG-15: ROR $10. -/
theorem test_lg_15 :
    regsAfter (withCells { base with p := fl 0x31#8 } [(0x0010, 0x02#8)]) [0x66#8, 0x10#8] =
        some ⟨0x00#8, 0x00#8, 0x00#8, 0xFF#8, 0xB0#8, 0x0602#16, 5⟩ ∧
      accessesAfter (withCells { base with p := fl 0x31#8 } [(0x0010, 0x02#8)]) [0x66#8, 0x10#8] =
        some [.read .data 0x0010#16 0x02#8, .write 0x0010#16 0x81#8] := by decide

/-- TV-LG-16: ROR A. -/
theorem test_lg_16 :
    regsAfter { base with a := 0x01#8 } [0x6A#8] =
      some ⟨0x00#8, 0x00#8, 0x00#8, 0xFF#8, 0x33#8, 0x0601#16, 2⟩ := by decide

/-! ### Control flow -/

/-- TV-CF-2: JMP $3000 (W=13). -/
theorem test_cf_2 :
    regsAfter { base with cfg := Config.narrowBus 13 } [0x4C#8, 0x00#8, 0x30#8] =
      some ⟨0x00#8, 0x00#8, 0x00#8, 0xFF#8, 0x30#8, 0x1000#16, 3⟩ := by decide

/-- TV-CF-4: JSR $C123. -/
theorem test_cf_4 :
    regsAfter { base with sp := 0x00#8 } [0x20#8, 0x23#8, 0xC1#8] =
        some ⟨0x00#8, 0x00#8, 0x00#8, 0xFE#8, 0x30#8, 0xC123#16, 6⟩ ∧
      accessesAfter { base with sp := 0x00#8 } [0x20#8, 0x23#8, 0xC1#8] =
        some [.write 0x0100#16 0x06#8, .write 0x01FF#16 0x02#8] := by decide

/-- TV-CF-6: RTS. -/
theorem test_cf_6 :
    regsAfter (withCells { base with sp := 0xFE#8 } [(0x01FF, 0xFF#8), (0x0100, 0xFF#8)]) [0x60#8] =
      some ⟨0x00#8, 0x00#8, 0x00#8, 0x00#8, 0x30#8, 0x0000#16, 6⟩ := by decide

/-- TV-BR-1: BPL $0607. -/
theorem test_br_1 :
    regsAfter base [0x10#8, 0x05#8] =
      some ⟨0x00#8, 0x00#8, 0x00#8, 0xFF#8, 0x30#8, 0x0607#16, 3⟩ := by decide

/-- TV-BR-3: BMI $0600. -/
theorem test_br_3 :
    regsAfter { base with p := fl 0xB0#8 } [0x30#8, 0xFE#8] =
      some ⟨0x00#8, 0x00#8, 0x00#8, 0xFF#8, 0xB0#8, 0x0600#16, 3⟩ := by decide

/-- TV-BR-4: BVC $0612. -/
theorem test_br_4 :
    regsAfter base [0x50#8, 0x10#8] =
      some ⟨0x00#8, 0x00#8, 0x00#8, 0xFF#8, 0x30#8, 0x0612#16, 3⟩ := by decide

/-- TV-BR-5: BVS $0612. -/
theorem test_br_5 :
    regsAfter base [0x70#8, 0x10#8] =
      some ⟨0x00#8, 0x00#8, 0x00#8, 0xFF#8, 0x30#8, 0x0602#16, 2⟩ := by decide

/-- TV-BR-6: BCS $0681. -/
theorem test_br_6 :
    regsAfter { base with p := fl 0x31#8 } [0xB0#8, 0x7F#8] =
      some ⟨0x00#8, 0x00#8, 0x00#8, 0xFF#8, 0x31#8, 0x0681#16, 3⟩ := by decide

/-- TV-BR-7: BNE $05FD. -/
theorem test_br_7 :
    regsAfter base [0xD0#8, 0xFB#8] =
      some ⟨0x00#8, 0x00#8, 0x00#8, 0xFF#8, 0x30#8, 0x05FD#16, 4⟩ := by decide

/-- TV-BR-8: BEQ $0582. -/
theorem test_br_8 :
    regsAfter { base with p := fl 0x32#8 } [0xF0#8, 0x80#8] =
      some ⟨0x00#8, 0x00#8, 0x00#8, 0xFF#8, 0x32#8, 0x0582#16, 4⟩ := by decide

/-! ### Stack, flags, BRK, RTI -/

/-- TV-ST-2: PHA. -/
theorem test_st_2 :
    regsAfter { base with a := 0x42#8, sp := 0x00#8 } [0x48#8] =
      some ⟨0x42#8, 0x00#8, 0x00#8, 0xFF#8, 0x30#8, 0x0601#16, 3⟩ := by decide

/-- TV-ST-4: PLA. -/
theorem test_st_4 :
    regsAfter (withCells { base with p := fl 0xB0#8 } [(0x0100, 0x00#8)]) [0x68#8] =
      some ⟨0x00#8, 0x00#8, 0x00#8, 0x00#8, 0x32#8, 0x0601#16, 4⟩ := by decide

/-- TV-ST-7: PHP. -/
theorem test_st_7 :
    regsAfter { base with p := fl 0xFF#8 } [0x08#8] =
        some ⟨0x00#8, 0x00#8, 0x00#8, 0xFE#8, 0xFF#8, 0x0601#16, 3⟩ ∧
      accessesAfter { base with p := fl 0xFF#8 } [0x08#8] =
        some [.write 0x01FF#16 0xFF#8] := by decide

/-- TV-ST-9: PLP. -/
theorem test_st_9 :
    regsAfter (withCells { base with sp := 0xFE#8, p := fl 0xFF#8 } [(0x01FF, 0x30#8)]) [0x28#8] =
      some ⟨0x00#8, 0x00#8, 0x00#8, 0xFF#8, 0x30#8, 0x0601#16, 4⟩ := by decide

/-- TV-ST-11: PHA (W=8, at=0x0040). -/
theorem test_st_11 :
    regsAfter { base with a := 0x42#8, pc := 0x0040#16, cfg := Config.narrowBus 8 } [0x48#8] =
      some ⟨0x42#8, 0x00#8, 0x00#8, 0xFE#8, 0x30#8, 0x0041#16, 3⟩ := by decide

/-- TV-FL-1: CLC. -/
theorem test_fl_1 :
    regsAfter { base with p := fl 0x31#8 } [0x18#8] =
      some ⟨0x00#8, 0x00#8, 0x00#8, 0xFF#8, 0x30#8, 0x0601#16, 2⟩ := by decide

/-- TV-FL-2: SEC. -/
theorem test_fl_2 :
    regsAfter base [0x38#8] =
      some ⟨0x00#8, 0x00#8, 0x00#8, 0xFF#8, 0x31#8, 0x0601#16, 2⟩ := by decide

/-- TV-FL-3: CLI. -/
theorem test_fl_3 :
    regsAfter { base with p := fl 0x34#8 } [0x58#8] =
      some ⟨0x00#8, 0x00#8, 0x00#8, 0xFF#8, 0x30#8, 0x0601#16, 2⟩ := by decide

/-- TV-FL-4: SEI. -/
theorem test_fl_4 :
    regsAfter base [0x78#8] =
      some ⟨0x00#8, 0x00#8, 0x00#8, 0xFF#8, 0x34#8, 0x0601#16, 2⟩ := by decide

/-- TV-FL-5: CLD. -/
theorem test_fl_5 :
    regsAfter { base with p := fl 0x38#8 } [0xD8#8] =
      some ⟨0x00#8, 0x00#8, 0x00#8, 0xFF#8, 0x30#8, 0x0601#16, 2⟩ := by decide

/-- TV-FL-6: SED. -/
theorem test_fl_6 :
    regsAfter base [0xF8#8] =
      some ⟨0x00#8, 0x00#8, 0x00#8, 0xFF#8, 0x38#8, 0x0601#16, 2⟩ := by decide

/-- TV-FL-7: CLV. -/
theorem test_fl_7 :
    regsAfter { base with p := fl 0x70#8 } [0xB8#8] =
      some ⟨0x00#8, 0x00#8, 0x00#8, 0xFF#8, 0x30#8, 0x0601#16, 2⟩ := by decide

/-- TV-FL-8: NOP. -/
theorem test_fl_8 :
    regsAfter { base with a := 0x01#8, p := fl 0xB1#8 } [0xEA#8] =
      some ⟨0x01#8, 0x00#8, 0x00#8, 0xFF#8, 0xB1#8, 0x0601#16, 2⟩ := by decide

/-- TV-FL-10: BRK. -/
theorem test_fl_10 :
    regsAfter (withCells { base with sp := 0x01#8, p := fl 0xBD#8 } [(0xFFFE, 0x34#8), (0xFFFF,
      0x12#8)]) [0x00#8, 0xFF#8] =
        some ⟨0x00#8, 0x00#8, 0x00#8, 0xFE#8, 0xBD#8, 0x1234#16, 7⟩ ∧
      accessesAfter (withCells { base with sp := 0x01#8, p := fl 0xBD#8 } [(0xFFFE, 0x34#8), (0xFFFF,
      0x12#8)]) [0x00#8, 0xFF#8] =
        some [.write 0x0101#16 0x06#8, .write 0x0100#16 0x02#8, .write 0x01FF#16 0xBD#8,
      .read .vector 0xFFFE#16 0x34#8, .read .vector 0xFFFF#16 0x12#8] := by decide

/-- TV-FL-11: BRK (W=13). -/
theorem test_fl_11 :
    regsAfter (withCells { base with cfg := Config.narrowBus 13 } [(0x1FFE, 0x00#8), (0x1FFF, 0xF0#8)]) [0x00#8,
      0xFF#8] =
      some ⟨0x00#8, 0x00#8, 0x00#8, 0xFC#8, 0x34#8, 0x1000#16, 7⟩ := by decide

/-- TV-FL-13: RTI. -/
theorem test_fl_13 :
    regsAfter (withCells { base with sp := 0xFC#8 } [(0x01FD, 0xCF#8), (0x01FE, 0x34#8), (0x01FF, 0x12#8)]) [0x40#8] =
      some ⟨0x00#8, 0x00#8, 0x00#8, 0xFF#8, 0xFF#8, 0x1234#16, 6⟩ := by decide

/-- R172: JSR fetches its third byte after its pushes. At 0x01FD the first push, of 0x01, lands on that third byte, so
the target is 0x0134 whatever was there. -/
theorem test_jsr_third_byte_pushed :
    (regsAfter { base with pc := 0x01FD#16 } [0x20#8, 0x34#8, 0x12#8]).map (fun r => r.pc) = some 0x0134#16 := by
  decide

/-- R179: a clear carry takes BCC. -/
theorem test_bcc :
    (regsAfter base [0x90#8, 0x10#8]).map (fun r => (r.pc, r.cycles)) = some (0x0612#16, 3) := by decide

/-! ### Undefined opcodes -/

/-- TV-UD-1. -/
theorem test_ud_1 : step (base.placeBytes base.pc [0x02#8]) = .refused (.undefinedOpcode 0x02#8) := rfl

/-- TV-UD-2. -/
theorem test_ud_2 :
    regsAfter { base with cfg := { Config.normalBus with undefPolicy := .table [(0x02#8, .nop 1 2)] } } [0x02#8] =
      some ⟨0x00#8, 0x00#8, 0x00#8, 0xFF#8, 0x30#8, 0x0601#16, 2⟩ := by decide

/-- TV-UD-3. -/
theorem test_ud_3 :
    after (State.placeBytes { base with cfg := { Config.normalBus with undefPolicy := .table [(0x02#8, .jam)] } } 0x0600#16
        [0x02#8]) (fun t => (t.pc, t.phase, t.reported)) =
      some (0x0600#16, .atFetch, 1) := by decide

/-! ### Reset, the lines, the interrupt check -/

theorem test_reset_memory_wf : State.reset.mem.wf = true ∧ State.reset.opcodeView.wf = true := by decide

theorem test_reset_state : State.reset.p.i = true ∧ State.reset.pc = 0 ∧ State.reset.phase = .atFetch := by decide

/-- A word placed at `PC` is what the next step runs: LDA #$00, then a JSR whose third byte lies above the table's bits. -/
theorem test_with_fetch_word :
    after (State.reset.withFetchWord 8 0xA9) (fun t => (t.a, t.pc, t.p.z)) = some (0x00#8, 0x0002#16, true) ∧
      after (State.reset.withFetchWord 24 0xC12320) (fun t => t.pc) = some 0xC123#16 := by decide

/-- Held in reset there is no step (R270). -/
theorem test_held_in_reset : step { base with resetLine := true } = .fault .heldInReset := rfl

/-- TV-INT-1, rows 2 and 4: IRQ masked, then taken when the host has cleared `I`. -/
theorem test_int_1 :
    after { base with p := fl 0x34#8, irqLine := true, phase := .atCheck, pc := 0x0601#16 } (fun t => t.pc) =
        some 0x0601#16 ∧
      after (withCells { base with irqLine := true, phase := .atCheck, pc := 0x0602#16 } [(0xFFFF, 0x90#8)])
          (fun t => (t.pc, t.sp, t.p.i, t.mem.read 0x1FF, t.mem.read 0x1FE, t.mem.read 0x1FD)) =
        some (0x9000#16, 0xFC#8, true, 0x06#8, 0x02#8, 0x20#8) := by decide

/-- TV-INT-3, row 2, and TV-INT-4, row 3: NMI is taken with `I` set, and before an IRQ. -/
theorem test_int_3 :
    after (withCells ({ base with p := fl 0x35#8, irqLine := true, phase := .atCheck, pc := 0x0601#16 } : State).assertNmi
        [(0xFFFB, 0xA0#8)]) (fun t => (t.pc, t.sp, t.nmiPending, t.mem.read 0x1FD, t.reported)) =
      some (0xA000#16, 0xFC#8, false, 0x25#8, 7) := by decide

/-- A held NMI line sets no latch again (R22). -/
theorem test_nmi_held : ({ base with nmiLine := true } : State).assertNmi.nmiPending = false := by decide

/-- TV-INT-5, row 2: reset of a 13-bit variant reads its vector at the masked addresses. -/
theorem test_int_5 :
    (applyEvent .assertReset (withCells { base with cfg := Config.narrowBus 13 } [(0x1FFD, 0x10#8)])).pc = 0x1000#16 ∧
      (applyEvent .assertReset base).p.i = true ∧ (applyEvent .assertReset base).resetLine = true := by decide

/-- A store to a device is one write on the bus, whatever the device does (R43, R61). -/
theorem test_device_store :
    after (State.placeBytes { base with plat.regions := [⟨0x2000, 16, .device⟩] } 0x0600#16 [0x8D#8, 0x05#8, 0x20#8])
        (fun t => (t.bus.getLast?, t.pc)) = some (some (.write 0x2005#16 0x00#8), 0x0603#16) := by decide

/-- R49: the reset vector is read with kind `opcode` under `decrypted`, with or without an opcode view, and with kind `direct`
under `direct`; R274: by the view where there is one. -/
theorem test_reset_vector_kind :
    ((applyEvent .assertReset { base with cfg.resetVectorView := .decrypted }).bus =
      [.read .opcode 0xFFFC#16 0x00#8, .read .opcode 0xFFFD#16 0x00#8]) ∧
    ((applyEvent .assertReset base).bus = [.read .direct 0xFFFC#16 0x00#8, .read .direct 0xFFFD#16 0x00#8]) ∧
    (applyEvent .assertReset
      { base with
        cfg.resetVectorView := .decrypted
        cfg.hasOpcodeView := true
        plat.opcodeView := [(0xFFFD, 0x80#8)] }).pc = 0x8000#16 := by decide

/-- A ROM cell keeps its byte. -/
theorem test_rom_store :
    after (withCells (State.placeBytes
        { base with a := 0x42#8, plat.regions := [⟨0x2000, 16, .rom⟩] } 0x0600#16
        [0x8D#8, 0x05#8, 0x20#8]) [(0x2005, 0x11#8)]) (fun t => t.mem.read 0x2005) = some 0x11#8 := by decide

/-- With an opcode view the opcode byte comes from it and the operand from the program space (R44, R47, R48). -/
theorem test_opcode_view :
    after { (withCells { base with cfg := { Config.normalBus with hasOpcodeView := true } }
        [(0x600, 0xEA#8), (0x601, 0x42#8)]) with plat.opcodeView := [(0x600, 0xA9#8)] } (fun t => t.a) = some 0x42#8 := by decide

/-- R277: a budget of one cycle runs one instruction and overruns by one cycle. -/
theorem test_run :
    (match runBudget 1 (base.placeBytes base.pc [0xEA#8]) with | .done n t => decide (n = 2 ∧ t.pc = 0x0601#16) | _ => false) =
      true := by decide

/-- R277: a table row of no cycles does not end the loop early; it takes more steps. -/
theorem test_run_no_cycles :
    let s := { base.placeBytes base.pc [0x02#8, 0xEA#8] with
      cfg.undefPolicy := .table [(0x02#8, .nop 1 0)] }
    (match runBudget 1 s with | .unfinished n t => decide (n = 0 ∧ t.pc = 0x0601#16) | _ => false) = true ∧
      (match runFor 3 1 s with | .done n t => decide (n = 2 ∧ t.pc = 0x0602#16) | _ => false) = true := by decide

/-- R278: a run ends where the claim's predicate says. -/
theorem test_run_until :
    (match runUntil (fun t => decide (t.pc = 0x0602#16)) 9 0 (base.placeBytes base.pc [0xEA#8, 0xEA#8, 0xEA#8]) with
      | .done n t => decide (n = 4 ∧ t.phase = .atCheck)
      | _ => false) = true := by decide

/-! ## Witnesses: states and operands that meet the hypotheses of the statements -/

/-- The invariant as a check. -/
def invCheck (s : State) : Bool :=
  s.cfg.wellFormed && decide (s.pc.toNat < 2 ^ s.cfg.addrWidth) && decide (s.cyc = 0) && s.mem.wf &&
    s.mem.below (2 ^ s.cfg.addrWidth) && s.opcodeView.wf && s.opcodeView.below (2 ^ s.cfg.addrWidth)

theorem inv_of_check {s : State} (h : invCheck s = true) : StateInv s := by
  simp only [invCheck, Bool.and_eq_true, decide_eq_true_eq] at h
  obtain ⟨⟨⟨⟨⟨⟨h1, h2⟩, h3⟩, h4⟩, h5⟩, h6⟩, h7⟩ := h
  exact ⟨h1, h2, h3, h4, h5, h6, h7⟩

/-- Whether an outcome is a next state. -/
def goesOn (o : Result) : Bool :=
  match o with
  | .next _ => true
  | _ => false

/-- The next state of an outcome. -/
def nextOf (o : Result) : State :=
  match o with
  | .next t => t
  | _ => base

theorem next_of_goesOn {o : Result} (h : goesOn o = true) : ∃ t, o = .next t := by
  match o, h with
  | .next t, _ => exact ⟨t, rfl⟩

/-- A core with two address bits, `PC` at its last cell, `SP` at its boundary. -/
def narrow : State := { base with cfg := Config.narrowBus 2, pc := 3#16, sp := 0x00#8 }

/-- A core with one address bit. -/
def oneBit : State := { base with cfg := Config.narrowBus 1, pc := 1#16, sp := 0x00#8 }

/-- `SP` at the boundary of the stack page. -/
def wrapping : State := { base with sp := 0x00#8, pc := 0xFFFF#16 }

/-- ROM under the stack byte, a device below it, an opcode view. -/
def mixed : State :=
  { base with
    plat.opcodeView := [(0x600, 0xEA#8)]
    plat.regions := [⟨0x1FF, 1, .rom⟩, ⟨0x1FE, 1, .device⟩]
    cfg.hasOpcodeView := true }

/-- The policy table of a core that jams. -/
def jamming : State :=
  { (base.placeBytes 0x0600#16 [0x02#8]) with cfg := { Config.normalBus with undefPolicy := totalTable .jam } }

theorem witness_inv : StateInv base ∧ StateInv narrow ∧ StateInv oneBit ∧ StateInv wrapping ∧ StateInv mixed ∧
    StateInv jamming :=
  ⟨inv_of_check (by decide), inv_of_check (by decide), inv_of_check (by decide), inv_of_check (by decide),
    inv_of_check (by decide), inv_of_check (by decide)⟩

theorem witness_DecodeOfEncodeIsIdentity :
    (Instr.undefined 0xFF#8).wellFormed = true ∧ (Instr.jsr 0xFFFF#16).wellFormed = true ∧
      (Instr.ldaImm 0xFF#8).wellFormed = true := by decide

theorem witness_EncodeOfDecodeIsIdentity :
    decode [0x20#8, 0xFF#8, 0xFF#8, 0xEA#8] = .ok (.jsr 0xFFFF#16) [0xEA#8] ∧
      decode [0xFF#8] = .ok (.undefined 0xFF#8) [] := by decide

/-- Three bytes that wrap round the end of the address space: JSR, whose third byte is not fetched yet. -/
theorem witness_StepRunsDecodedInstruction :
    let s := wrapping.placeBytes 0xFFFF#16 [0x20#8, 0x34#8, 0x12#8]
    s.phase = .atFetch ∧ s.resetLine = false ∧ IsPlain s s.pc ∧ IsPlain s (s.nextPc 1) ∧ IsPlain s (s.nextPc 2) ∧
      decode (codeBytes s) = .ok (.jsr 0x1234#16) [] := by decide

theorem witness_StepRunsDecodedInstruction_view :
    mixed.phase = .atFetch ∧ mixed.resetLine = false ∧ IsPlain mixed mixed.pc ∧ IsPlain mixed (mixed.nextPc 1) ∧
      IsPlain mixed (mixed.nextPc 2) ∧ decode (codeBytes mixed) = .ok .nop [0x00#8, 0x00#8] := by decide

theorem witness_DocumentedInstructionsComplete : Instr.brk.isUndefined = false ∧ (Instr.ldaImm 0#8).isUndefined = false := by
  decide

/-- An instruction step, an interrupt check that takes an NMI, a jam. -/
theorem witness_StepKeepsInvariant :
    (StateInv base ∧ ∃ t, step base = .next t) ∧
      (StateInv { wrapping with phase := .atCheck, nmiPending := true } ∧
        ∃ t, step { wrapping with phase := .atCheck, nmiPending := true } = .next t) ∧
      (StateInv jamming ∧ ∃ t, step jamming = .next t) :=
  ⟨⟨inv_of_check (by decide), next_of_goesOn (by decide)⟩, ⟨inv_of_check (by decide), next_of_goesOn (by decide)⟩,
    ⟨inv_of_check (by decide), next_of_goesOn (by decide)⟩⟩

theorem witness_EventKeepsInvariant :
    StateInv narrow ∧ (∀ r, Event.restore wrapping.save = .restore r → r.cyc = 0) ∧
      (∀ r, Event.setPc 0xFFFF#16 = .restore r → r.cyc = 0) :=
  ⟨inv_of_check (by decide), (fun _ h => by cases h; rfl), (fun _ h => by cases h)⟩

theorem witness_AssertResetPerformsService :
    ({ base with resetLine := true } : State).resetLine = true ∧ narrow.resetLine = false ∧
      narrow.cfg.resetVectorView = .direct ∧ IsPlain narrow 0xFFFC#16 ∧ IsPlain narrow 0xFFFD#16 ∧
      ({ mixed with cfg.resetVectorView := .decrypted } : State).cfg.resetVectorView = .decrypted ∧
      IsPlain mixed 0xFFFC#16 ∧ IsPlain mixed 0xFFFD#16 := by decide

theorem witness_InterruptCheckFollowsPriority_nmi :
    let s := { base with phase := .atCheck, nmiPending := true, irqLine := true, p := fl 0x34#8 }
    s.phase = .atCheck ∧ s.resetLine = false ∧ s.nmiPending = true ∧ StateInv s.beginStep ∧
      OnlyPlain s.beginStep (nextOf (step s)) ∧ IsRam s (stackAddr s.sp) :=
  ⟨by decide, by decide, by decide, inv_of_check (by decide), by decide, by decide⟩

theorem witness_InterruptCheckFollowsPriority_irq :
    let s := { base with phase := .atCheck, irqLine := true }
    s.phase = .atCheck ∧ s.resetLine = false ∧ s.nmiPending = false ∧ s.irqLine = true ∧ s.p.i = false ∧
      StateInv s.beginStep ∧ OnlyPlain s.beginStep (nextOf (step s)) ∧ IsRam s (stackAddr (s.sp - 2#8)) :=
  ⟨by decide, by decide, by decide, by decide, by decide, inv_of_check (by decide), by decide, by decide⟩

theorem witness_InterruptCheckFollowsPriority_none :
    let s := { base with phase := .atCheck, irqLine := true, p := fl 0x34#8 }
    s.phase = .atCheck ∧ s.resetLine = false ∧ s.nmiPending = false ∧ (s.irqLine = false ∨ s.p.i = true) := by decide

/-- Three stack bytes across the wrap of `SP`, with sixteen address bits and with two. -/
theorem witness_EntryPushesPcAndStatus :
    (StateInv wrapping ∧ 2 ≤ wrapping.cfg.addrWidth ∧ IsRam wrapping (stackAddr wrapping.sp) ∧
      IsRam wrapping (stackAddr (wrapping.sp - 1#8)) ∧ IsRam wrapping (stackAddr (wrapping.sp - 2#8)) ∧
      OnlyPlain wrapping (raiseInterrupt .irq wrapping)) ∧
    (StateInv narrow ∧ 2 ≤ narrow.cfg.addrWidth ∧ IsRam narrow (stackAddr narrow.sp) ∧
      IsRam narrow (stackAddr (narrow.sp - 1#8)) ∧ IsRam narrow (stackAddr (narrow.sp - 2#8)) ∧
      OnlyPlain narrow (raiseInterrupt .nmi narrow)) :=
  ⟨⟨inv_of_check (by decide), by decide⟩, ⟨inv_of_check (by decide), by decide⟩⟩

theorem witness_ReturnUndoesEntry :
    StateInv narrow ∧ 2 ≤ narrow.cfg.addrWidth ∧ IsRam narrow (stackAddr narrow.sp) ∧
      IsRam narrow (stackAddr (narrow.sp - 1#8)) ∧ IsRam narrow (stackAddr (narrow.sp - 2#8)) ∧
      IsPlain narrow (vectorAddr .brk) ∧ IsPlain narrow (vectorAddr .brk + 1#16) :=
  ⟨inv_of_check (by decide), by decide⟩

theorem witness_NmiLatchIsEdgeTriggered :
    base.nmiLine = false ∧ ({ base with nmiLine := true } : State).nmiLine = true ∧ base.resetLine = false ∧
      ({ base with phase := .atCheck, nmiPending := true } : State).nmiPending = true ∧
      ({ base with phase := .atCheck, nmiPending := true } : State).phase = .atCheck := by decide

theorem witness_PushedBitFourTellsBrkFromIrq :
    StateInv oneBit ∧ IsRam oneBit (stackAddr (oneBit.sp - 2#8)) ∧ OnlyPlain oneBit (raiseInterrupt .irq oneBit) :=
  ⟨inv_of_check (by decide), by decide, by decide⟩

theorem witness_AccessesMaskTheirAddress :
    ({ base with cfg := Config.narrowBus 13 } : State).cfg.addrWidth = 13 := by decide

theorem witness_ReadGivesLatestStore :
    StateInv narrow ∧ IsRam narrow 3#16 ∧ IsPlain narrow 3#16 ∧ IsPlain narrow 4#16 ∧ narrow.mask 3#16 ≠ narrow.mask 4#16 :=
  ⟨inv_of_check (by decide), by decide⟩

/-- A read-modify-write form, and a JSR whose second push lands on the third byte it then fetches. -/
theorem witness_StoreIsSeenByFetch :
    let t := nextOf (exec (.incAbs 0xFFFF#16) base)
    let u := { wrapping with pc := 0x01FF#16 }
    (StateInv base ∧ exec (.incAbs 0xFFFF#16) base = .next t ∧ OnlyPlain base t ∧ IsRam base 0xFFFF#16 ∧
      lastWrite (base.mask 0xFFFF#16) (newAccesses base t) = some 1#8 ∧ base.cfg.hasOpcodeView = false) ∧
    (StateInv u ∧ exec (.jsr 0x1234#16) u = .next (nextOf (exec (.jsr 0x1234#16) u)) ∧
      OnlyPlain u (nextOf (exec (.jsr 0x1234#16) u)) ∧ IsRam u 0x01FF#16 ∧
      lastWrite (u.mask 0x01FF#16) (newAccesses u (nextOf (exec (.jsr 0x1234#16) u))) = some 0xFF#8) :=
  ⟨⟨inv_of_check (by decide), rfl, by decide, by decide, by decide, by decide⟩,
    ⟨inv_of_check (by decide), rfl, by decide, by decide, by decide⟩⟩

theorem witness_AccessesChangeThePlatformInOrder :
    (∃ t, step base = .next t) ∧ ∃ t, exec (.incAbs 0xFFFF#16) base = .next t :=
  ⟨next_of_goesOn (by decide), next_of_goesOn (by decide)⟩

theorem witness_StackStaysInItsPage :
    StateInv wrapping ∧ IsRam wrapping (stackAddr wrapping.sp) ∧ IsPlain wrapping (stackAddr (wrapping.sp + 1#8)) ∧
      StateInv mixed ∧ IsPlain mixed (stackAddr mixed.sp) :=
  ⟨inv_of_check (by decide), by decide, by decide, inv_of_check (by decide), by decide⟩

theorem witness_IndirectModesReadPageZeroPointers :
    IsPlain base (zext16 (0xFF#8 + base.x)) ∧ IsPlain base (zext16 (0xFF#8 + base.x + 1#8)) ∧
      IsPlain base (zext16 0xFF#8) ∧ IsPlain base (zext16 (0xFF#8 + 1#8)) := by decide

/-- No list of forms is empty. -/
theorem witness_forms (b : Byte) (w : Addr) :
    (readForms b w).length = 63 ∧ (writeForms b w).length = 13 ∧ (rmwForms b w).length = 24 ∧
      (branchConditions b base.p).length = 8 := ⟨rfl, rfl, rfl, rfl⟩

/-- STA to a RAM cell, in the mode that reads a pointer. -/
theorem witness_StoresWriteTheirRegister :
    StateInv base ∧ IsRam base (Form.ea ⟨.staIndx 0xFF#8, 0x81#8, modeIndx 0xFF#8, 6⟩ base) :=
  ⟨inv_of_check (by decide), by decide⟩

theorem witness_AdcAddsInBinary :
    base.p.d = false ∧ ({ base with cfg := binaryOnly, p := fl 0x38#8 } : State).cfg.decimalEnabled = false := by decide

theorem witness_SbcSubtractsInBinary :
    base.p.d = false ∧ ({ base with cfg := binaryOnly, p := fl 0x38#8 } : State).cfg.decimalEnabled = false := by decide

theorem witness_AdcAddsInDecimal :
    let s := { base with a := 0x99#8, p := fl 0x39#8 }
    s.p.d = true ∧ s.cfg.decimalEnabled = true ∧ ValidBcd s.a ∧ ValidBcd 0x99#8 ∧
      ValidBcd (Form.operand ⟨.adcZp 0#8, 0x65#8, modeZp 0#8, 3⟩ s) := by decide

theorem witness_SbcSubtractsInDecimal :
    let s := { base with a := 0x00#8, p := fl 0x38#8 }
    s.p.d = true ∧ s.cfg.decimalEnabled = true ∧ ValidBcd s.a ∧ ValidBcd 0x99#8 ∧
      ValidBcd (Form.operand ⟨.sbcZp 0#8, 0xE5#8, modeZp 0#8, 3⟩ s) := by decide

theorem witness_IncDecChangeMemoryByOne :
    StateInv base ∧ IsRam base (Form.ea ⟨.incAbsx 0xFFFF#16, 0xFE#8, modeAbsx 0xFFFF#16, 7⟩ { base with x := 1#8 }) :=
  ⟨inv_of_check (by decide), by decide⟩

theorem witness_BitTestsMemory : IsPlain mixed (Form.ea ⟨.bitAbs 0x01FF#16, 0x2C#8, modeAbs 0x01FF#16, 4⟩ mixed) := by decide

theorem witness_ShiftsAndRotates :
    StateInv base ∧ IsRam base (Form.ea ⟨.rorZpx 0xFF#8, 0x76#8, modeZpx 0xFF#8, 6⟩ base) :=
  ⟨inv_of_check (by decide), by decide⟩

theorem witness_JumpsLoadPc :
    IsPlain base 0x02FF#16 ∧ IsPlain base (wordOf (hiByte 0x02FF#16) (loByte 0x02FF#16 + 1#8)) := by decide

theorem witness_JsrPushesReturnAddress :
    StateInv wrapping ∧ IsRam wrapping (stackAddr wrapping.sp) ∧ IsRam wrapping (stackAddr (wrapping.sp - 1#8)) ∧
      OnlyPlain wrapping (nextOf (exec (.jsr 0x1234#16) wrapping)) :=
  ⟨inv_of_check (by decide), by decide⟩

theorem witness_RtsPullsReturnAddress :
    IsPlain wrapping (stackAddr (wrapping.sp + 1#8)) ∧ IsPlain wrapping (stackAddr (wrapping.sp + 2#8)) := by decide

theorem witness_RtsReturnsFromJsr :
    StateInv oneBit ∧ IsRam oneBit (stackAddr oneBit.sp) ∧ IsRam oneBit (stackAddr (oneBit.sp - 1#8)) ∧
      IsPlain oneBit oneBit.pc :=
  ⟨inv_of_check (by decide), by decide⟩

/-- A branch that is taken and one that is not. -/
theorem witness_BranchesFollowTheirFlag :
    (Instr.bpl 0x80#8, 0x10#8, true) ∈ branchConditions 0x80#8 base.p ∧
      (Instr.bmi 0x80#8, 0x30#8, false) ∈ branchConditions 0x80#8 base.p := by decide

theorem witness_PushInstructionsStore : StateInv wrapping ∧ IsRam wrapping (stackAddr wrapping.sp) :=
  ⟨inv_of_check (by decide), by decide⟩

theorem witness_PullInstructionsLoad : IsPlain base (stackAddr (base.sp + 1#8)) := by decide

theorem witness_BrkEntersThroughIrqVector :
    let s := { wrapping with pc := wrapping.nextPc 1 }
    StateInv s ∧ 2 ≤ s.cfg.addrWidth ∧ IsRam s (stackAddr s.sp) ∧ IsRam s (stackAddr (s.sp - 1#8)) ∧
      IsRam s (stackAddr (s.sp - 2#8)) ∧ OnlyPlain s (nextOf (exec .brk wrapping)) :=
  ⟨inv_of_check (by decide), by decide⟩

theorem witness_RtiPullsStatusAndPc :
    IsPlain wrapping (stackAddr (wrapping.sp + 1#8)) ∧ OnlyPlain wrapping (nextOf (exec .rti wrapping)) := by decide

/-- For each policy a state that has it and a byte it speaks of; the no-operation of three bytes wraps round the address
space. -/
theorem witness_UndefinedBytesFollowThePolicy :
    let row := fun e => undefinedOpcodes.map fun op => (op, e)
    let nop := { wrapping with cfg.undefPolicy := .table (row (.nop 3 4)) }
    let op := { base with cfg.undefPolicy := .table (row (.op "slo")) }
    base.cfg.undefPolicy = .refuse ∧
      (nop.cfg.undefPolicy = .table (row (.nop 3 4)) ∧ (row (.nop 3 4)).lookup 0xFF#8 = some (.nop 3 4) ∧ StateInv nop ∧
        OnlyPlain nop (nextOf (exec (.undefined 0xFF#8) nop))) ∧
      (jamming.cfg.undefPolicy = .table (row .jam) ∧ (row .jam).lookup 0x02#8 = some .jam) ∧
      op.cfg.undefPolicy = .table (row (.op "slo")) ∧ (row (.op "slo")).lookup 0x03#8 = some (.op "slo") :=
  ⟨rfl, ⟨rfl, by decide, inv_of_check (by decide), by decide⟩, ⟨rfl, by decide⟩, rfl, by decide⟩

theorem witness_JamStepReturnsToItsState :
    StateInv jamming ∧ jamming.phase = .atFetch ∧ jamming.resetLine = false ∧ IsPlain jamming jamming.pc ∧
      opcodeByteAt jamming jamming.pc = 0x02#8 ∧ 0x02#8 ∈ undefinedOpcodes ∧
      jamming.cfg.undefPolicy = .table (undefinedOpcodes.map fun op => (op, .jam)) ∧
      (undefinedOpcodes.map fun op => (op, UndefEntry.jam)).lookup 0x02#8 = some .jam :=
  ⟨inv_of_check (by decide), by decide, by decide, by decide, by decide, by decide, rfl, by decide⟩

/-- For the frames: an instruction that writes no register and no flag, one that writes all but `A`, and one that stores. -/
theorem witness_frames :
    (∃ t, exec .nop base = .next t) ∧ writes .nop = {} ∧ (∃ t, exec .rti base = .next t) ∧ (writes .rti).a = false ∧
      (∃ t, exec (.incAbs 0xFFFF#16) base = .next t) ∧ storedAddrs (.incAbs 0xFFFF#16) base = [0xFFFF#16] :=
  ⟨next_of_goesOn (by decide), by decide, next_of_goesOn (by decide), by decide, next_of_goesOn (by decide), by decide⟩

/-- An instruction that stores, and one that stores nothing in a core with an opcode view. -/
theorem witness_MemoryChangesOnlyWhereStored :
    let t := nextOf (exec (.incAbs 0xFFFF#16) base)
    let u := nextOf (exec (.ldaAbs 0x01FF#16) mixed)
    (exec (.incAbs 0xFFFF#16) base = .next t ∧ OnlyPlain base t ∧ base.cfg.hasOpcodeView = false) ∧
      exec (.ldaAbs 0x01FF#16) mixed = .next u ∧ OnlyPlain mixed u ∧ storedAddrs (.ldaAbs 0x01FF#16) mixed = [] :=
  ⟨⟨rfl, by decide, by decide⟩, rfl, by decide, by decide⟩

theorem witness_SequentialInstructionsLeavePc :
    Instr.pla.isUndefined = false ∧ (writes .pla).pc = false ∧ ∃ t, exec .pla base = .next t :=
  ⟨by decide, by decide, next_of_goesOn (by decide)⟩

/-- A core in another state, bound to an equivalent bus. -/
theorem witness_RestoredStateContinuesIdentically :
    let t := { base with a := 1#8, pc := 0x1234#16, phase := .atCheck, nmiPending := true, reported := 7 }
    StateInv base ∧ t.cfg = base.cfg ∧ t.plat = base.plat ∧ t.draws = base.draws ∧ t ≠ base :=
  ⟨inv_of_check (by decide), by decide⟩

/-- A run that overruns its budget, one that is held in reset, and one with a budget of zero. -/
theorem witness_RunStopsAtBudget :
    base.cfg.undefPolicy = .refuse ∧ (∃ t, runFor 2 1 base = .done 7 t) ∧
      (∃ t, runFor 2 1 { base with resetLine := true } = .done 0 t) ∧ (∃ t, runFor 0 0 base = .done 0 t) ∧
      RunsFor 0 0 base 0 base ∧ RunsFor 1 0 { base with resetLine := true } 0 { base with resetLine := true } :=
  ⟨by decide, ⟨_, rfl⟩, ⟨_, rfl⟩, ⟨_, rfl⟩, .consumed (Nat.zero_le 0), .held rfl⟩

/-- A run that ends after two core steps, and one that ends where it starts. -/
theorem witness_RunUntilStopsAtItsEnd :
    (∃ t, runUntil (fun t => decide (t.pc = 0x0602#16)) 9 0 (base.placeBytes base.pc [0xEA#8, 0xEA#8]) = .done 4 t) ∧
      ∃ t, runUntil (fun _ => true) 0 0 base = .done 0 t :=
  ⟨⟨_, rfl⟩, ⟨_, rfl⟩⟩

end Sys2Proof.Tests
end

/-! ## The invariant at reset -/

namespace Sys2Proof

open Sys2Proof.Machine

/-- R1: the bus widths 1 to 16 are in range; the policy `refuse` has no table to check. -/
theorem Config.narrowBus_wellFormed {w : Nat} (hlow : 1 ≤ w) (hhigh : w ≤ 16) :
    (Config.narrowBus w).wellFormed = true := by
  simp [Config.wellFormed, Config.narrowBus, hlow, hhigh]

/-- R41: byte arrays that list nothing are canonical and fit every address space. -/
theorem Machine.Platform.ok_of_nothing_listed {M : Platform} (w : Nat) (hmem : M.mem = [])
    (hview : M.opcodeView = []) : M.Ok w where
  memWf := by rw [hmem]; rfl
  memFits := Memory.below_iff.mpr (by simp [hmem])
  viewWf := by rw [hview]; rfl
  viewFits := Memory.below_iff.mpr (by simp [hview])

/-- The invariant is one condition on each of the parameters, `PC`, the pending-cycle counter and the platform. -/
theorem stateInv_iff {s : State} :
    StateInv s ↔ s.cfg.wellFormed = true ∧ s.pc.toNat < 2 ^ s.cfg.addrWidth ∧ s.cyc = 0 ∧
      s.plat.Ok s.cfg.addrWidth where
  mp h := ⟨h.config, h.pcFits, h.cycZero, h.memWf, h.memFits, h.viewWf, h.viewFits⟩
  mpr := fun ⟨hcfg, hpc, hcyc, hplat⟩ =>
    ⟨hcfg, hpc, hcyc, hplat.memWf, hplat.memFits, hplat.viewWf, hplat.viewFits⟩

/-- Settles O11: the parameters are those of `NormalBus` (R2), `PC` is 0, and neither byte array lists a cell. -/
theorem resetMeetsInvariant : Obligations.ResetMeetsInvariant := by
  unfold Obligations.ResetMeetsInvariant
  have hcfg : State.reset.cfg.wellFormed = true := Config.narrowBus_wellFormed (w := 16) (by decide) (by decide)
  have hpc : State.reset.pc.toNat < 2 ^ State.reset.cfg.addrWidth := Nat.two_pow_pos _
  have hplat : State.reset.plat.Ok State.reset.cfg.addrWidth := Platform.ok_of_nothing_listed _ rfl rfl
  exact stateInv_iff.mpr ⟨hcfg, hpc, rfl, hplat⟩

end Sys2Proof

/-! ## What each operation of the core may change -/

namespace Sys2Proof

open Sys2Proof.Machine

/-! ### Rules of the invariant -/

/-- R41: the part of the invariant that is about the platform. -/
theorem StateInv.platOk {s : State} (h : StateInv s) : s.plat.Ok s.cfg.addrWidth :=
  ⟨h.memWf, h.memFits, h.viewWf, h.viewFits⟩

/-- What the invariant depends on. -/
theorem StateInv.congr {s t : State} (h : StateInv s) (hcfg : t.cfg = s.cfg) (hpc : t.pc = s.pc) (hcyc : t.cyc = s.cyc)
    (hplat : t.plat = s.plat) : StateInv t := by
  rw [stateInv_iff, hcfg, hpc, hcyc, hplat]
  exact stateInv_iff.mp h

/-- R43: the invariant says nothing of the recorded accesses, and of the platform only that it is canonical. -/
theorem StateInv.access {s : State} (h : StateInv s) {M : Platform} (hM : M.Ok s.cfg.addrWidth)
    (l : List BusAccess) : StateInv { s with plat := M, bus := l } :=
  stateInv_iff.mpr ⟨h.config, h.pcFits, h.cycZero, hM⟩

/-- R16: a load of `PC` is masked to its width. -/
theorem StateInv.jump {s : State} (h : StateInv s) (target : Addr) : StateInv (s.jump target) :=
  stateInv_iff.mpr ⟨h.config, mask_lt s target, h.cycZero, h.platOk⟩

/-! ### The frame of an operation -/

/-- From `p` to `q` only the flags that `w` lists may differ (R20). -/
structure FlagsKept (w : Writes) (p q : Flags) : Prop where
  c : w.c = false → q.c = p.c := by exact fun _ => rfl
  nz : w.nz = false → q.z = p.z ∧ q.n = p.n := by exact fun _ => ⟨rfl, rfl⟩
  i : w.i = false → q.i = p.i := by exact fun _ => rfl
  d : w.d = false → q.d = p.d := by exact fun _ => rfl
  v : w.v = false → q.v = p.v := by exact fun _ => rfl

/-- From `s` to `t` only the registers and flags that `w` lists may differ, the lines, the latch and the parameters do not,
and the invariant is kept. A field that holds by evaluation needs no mention in a proof of this. -/
structure Frame (w : Writes) (s t : State) : Prop where
  a : w.a = false → t.a = s.a := by exact fun _ => rfl
  x : w.x = false → t.x = s.x := by exact fun _ => rfl
  y : w.y = false → t.y = s.y := by exact fun _ => rfl
  sp : w.sp = false → t.sp = s.sp := by exact fun _ => rfl
  pc : w.pc = false → t.pc = s.pc := by exact fun _ => rfl
  flags : FlagsKept w s.p t.p := by exact {}
  inputs : InputsSame s t := by exact ⟨rfl, rfl, rfl, rfl, rfl⟩
  inv : StateInv s → StateInv t := by exact fun h => h.congr rfl rfl rfl rfl

section

variable {w : Writes} {s t u : State}

theorem FlagsKept.trans {p q r : Flags} (h : FlagsKept w p q) (h' : FlagsKept w q r) : FlagsKept w p r where
  c hw := (h'.c hw).trans (h.c hw)
  nz hw := ⟨(h'.nz hw).1.trans (h.nz hw).1, (h'.nz hw).2.trans (h.nz hw).2⟩
  i hw := (h'.i hw).trans (h.i hw)
  d hw := (h'.d hw).trans (h.d hw)
  v hw := (h'.v hw).trans (h.v hw)

/-- Where all flags are listed, nothing is said of them. -/
theorem FlagsKept.of_all_written {p q : Flags} (hc : w.c = true) (hnz : w.nz = true) (hi : w.i = true)
    (hd : w.d = true) (hv : w.v = true) : FlagsKept w p q := by
  constructor <;> simp [hc, hnz, hi, hd, hv]

theorem InputsSame.trans (h : InputsSame s t) (h' : InputsSame t u) : InputsSame s u := by
  obtain ⟨hirq, hnmi, hreset, hlatch, hcfg⟩ := h
  obtain ⟨hirq', hnmi', hreset', hlatch', hcfg'⟩ := h'
  exact ⟨hirq'.trans hirq, hnmi'.trans hnmi, hreset'.trans hreset, hlatch'.trans hlatch, hcfg'.trans hcfg⟩

theorem Frame.refl (s : State) : Frame w s s where

theorem Frame.trans (h : Frame w s t) (h' : Frame w t u) : Frame w s u where
  a hw := (h'.a hw).trans (h.a hw)
  x hw := (h'.x hw).trans (h.x hw)
  y hw := (h'.y hw).trans (h.y hw)
  sp hw := (h'.sp hw).trans (h.sp hw)
  pc hw := (h'.pc hw).trans (h.pc hw)
  flags := h.flags.trans h'.flags
  inputs := h.inputs.trans h'.inputs
  inv := h'.inv ∘ h.inv

/-! ### Registers and flags -/

theorem setNZ_flagsKept (hnz : w.nz = true) (v : Byte) (p : Flags) : FlagsKept w p (setNZ v p) where
  nz := by simp [hnz]

theorem withP_frame {p : Flags} (h : FlagsKept w s.p p) : Frame w s (s.withP p) where
  flags := h

theorem putA_frame (ha : w.a = true) {r : Byte × Flags} (h : FlagsKept w s.p r.2) : Frame w s (s.putA r) where
  a := by simp [ha]
  flags := h

theorem loadA_frame (ha : w.a = true) (hnz : w.nz = true) (v : Byte) : Frame w s (s.loadA v) where
  a := by simp [ha]
  flags := setNZ_flagsKept hnz v s.p

theorem loadX_frame (hx : w.x = true) (hnz : w.nz = true) (v : Byte) : Frame w s (s.loadX v) where
  x := by simp [hx]
  flags := setNZ_flagsKept hnz v s.p

theorem loadY_frame (hy : w.y = true) (hnz : w.nz = true) (v : Byte) : Frame w s (s.loadY v) where
  y := by simp [hy]
  flags := setNZ_flagsKept hnz v s.p

theorem withSp_frame (hsp : w.sp = true) (v : Byte) : Frame w s (s.withSp v) where
  sp := by simp [hsp]

theorem jump_frame (hpc : w.pc = true) (target : Addr) : Frame w s (s.jump target) where
  pc := by simp [hpc]
  inv h := h.jump target

theorem retire_frame (n : Nat) : Frame w s (s.retire n) where
  inv h := stateInv_iff.mpr ⟨h.config, h.pcFits, rfl, h.platOk⟩

/-! ### Accesses -/

theorem busRead_frame (k : ReadKind) (addr : Addr) (s : State) : Frame w s (busRead k addr s).2 where
  inv h := h.access (Platform.afterRead_ok h.platOk _ _) _

theorem memRead_frame (addr : Addr) (s : State) : Frame w s (memRead addr s).2 := busRead_frame .data addr s

theorem memWrite_frame (addr : Addr) (v : Byte) (s : State) : Frame w s (memWrite addr v s) where
  inv h := h.access (Platform.afterWrite_ok h.platOk (mask_lt s addr) v) _

theorem fetchOperand_frame (hpc : w.pc = true) (s : State) : Frame w s (fetchOperand s).2 :=
  (busRead_frame .operand s.pc s).trans (jump_frame hpc _)

theorem zeroPagePointer_frame (b : Byte) (s : State) : Frame w s (zeroPagePointer b s).2 :=
  (memRead_frame _ s).trans (memRead_frame _ _)

theorem modeIndx_frame (b2 : Byte) (s : State) : Frame w s (modeIndx b2 s).st := zeroPagePointer_frame _ s

theorem modeIndy_frame (b2 : Byte) (s : State) : Frame w s (modeIndy b2 s).st := zeroPagePointer_frame _ s

theorem modeInd_frame (ptr : Addr) (s : State) : Frame w s (modeInd ptr s).2 :=
  (memRead_frame _ s).trans (memRead_frame _ _)

theorem readVectorWord_frame (addr : Addr) (s : State) : Frame w s (readVectorWord addr s).2 :=
  (busRead_frame .vector _ s).trans (busRead_frame .vector _ _)

/-! ### The stack -/

theorem push_frame (hsp : w.sp = true) (v : Byte) (s : State) : Frame w s (push v s) :=
  (memWrite_frame _ v s).trans (withSp_frame hsp _)

theorem pull_frame (hsp : w.sp = true) (s : State) : Frame w s (pull s).2 :=
  (withSp_frame hsp _).trans (memRead_frame _ _)

theorem pushWord_frame (hsp : w.sp = true) (v : Addr) (s : State) : Frame w s (pushWord v s) :=
  (push_frame hsp _ s).trans (push_frame hsp _ _)

theorem pullWord_frame (hsp : w.sp = true) (s : State) : Frame w s (pullWord s).2 :=
  (pull_frame hsp s).trans (pull_frame hsp _)

theorem raiseInterrupt_frame (hsp : w.sp = true) (hpc : w.pc = true) (hi : w.i = true) (k : InterruptKind) (s : State) :
    Frame w s (raiseInterrupt k s) :=
  have hpushed : Frame w s (push (packP (breakBit k) s.p) (pushWord s.pc s)) :=
    (pushWord_frame hsp s.pc s).trans (push_frame hsp _ _)
  have hmasked := hpushed.trans (withP_frame (p := { s.p with i := true }) { i := by simp [hi] })
  hmasked.trans ((readVectorWord_frame (vectorAddr k) _).trans (jump_frame hpc _))

/-- R239: every flag comes from the stack. -/
theorem returnFromInterrupt_frame (s : State) :
    Frame { sp := true, pc := true, nz := true, v := true, d := true, i := true, c := true } s
      (returnFromInterrupt s) :=
  (pull_frame rfl s).trans ((withP_frame (.of_all_written rfl rfl rfl rfl rfl)).trans
    ((pullWord_frame rfl _).trans (jump_frame rfl _)))

/-! ### The uses of an operand -/

theorem readInstr_frame {r : Resolved} {base : Nat} {f : Byte → State → State} (h : readInstr r base f = .next t)
    (hr : Frame w s r.st) (hf : ∀ m u, Frame w u (f m u)) : Frame w s t := by
  rw [readInstr_eq] at h
  cases h
  exact (hr.trans (memRead_frame _ _)).trans ((hf _ _).trans (retire_frame _))

theorem writeInstr_frame {r : Resolved} {base : Nat} {v : Byte} (h : writeInstr r base v = .next t)
    (hr : Frame w s r.st) : Frame w s t := by
  rw [writeInstr_eq] at h
  cases h
  exact (hr.trans (memWrite_frame _ _ _)).trans (retire_frame _)

theorem rmwInstr_frame {r : Resolved} {base : Nat} {f : Byte → Flags → Byte × Flags}
    (h : rmwInstr r base f = .next t) (hr : Frame w s r.st) (hf : ∀ m p, FlagsKept w p (f m p).2) : Frame w s t := by
  rw [rmwInstr_eq] at h
  cases h
  exact (hr.trans (memRead_frame _ _)).trans
    ((memWrite_frame _ _ _).trans ((withP_frame (hf _ _)).trans (retire_frame _)))

theorem accInstr_frame {f : Byte → Flags → Byte × Flags} (h : accInstr s f = .next t) (ha : w.a = true)
    (hf : ∀ m p, FlagsKept w p (f m p).2) : Frame w s t := by
  cases h
  exact (putA_frame ha (hf _ _)).trans (retire_frame 2)

theorem immInstr_frame {m : Byte} {f : Byte → State → State} (h : immInstr m s f = .next t)
    (hf : ∀ m u, Frame w u (f m u)) : Frame w s t := by
  cases h
  exact (hf _ _).trans (retire_frame 2)

theorem impliedInstr_frame (h : impliedInstr u = .next t) (hu : Frame w s u) : Frame w s t := by
  cases h
  exact hu.trans (retire_frame 2)

theorem branchInstr_frame {taken : Bool} {b2 : Byte} (h : branchInstr taken b2 s = .next t) (hpc : w.pc = true) :
    Frame w s t := by
  unfold branchInstr at h
  split at h
  · cases h
    exact (jump_frame hpc _).trans (retire_frame _)
  · cases h
    exact retire_frame 2

theorem skipOperands_frame (hpc : w.pc = true) (k : Nat) (s : State) : Frame w s (skipOperands k s) := by
  induction k generalizing s with
  | zero => exact .refl s
  | succ k ih => exact (fetchOperand_frame hpc s).trans (ih _)

theorem jam_frame (hpc : w.pc = true) (s : State) : Frame w s (jam s) where
  pc := by simp [hpc]
  inv h := stateInv_iff.mpr ⟨h.config, mask_lt s _, rfl, h.platOk⟩

theorem execUndefined_frame {op : Byte} (h : execUndefined op s = .next t) (hpc : w.pc = true) : Frame w s t := by
  obtain ⟨-, len, cycles, -, -, rfl⟩ | ⟨-, -, -, rfl⟩ := execUndefined_next h
  · exact (skipOperands_frame hpc _ s).trans (retire_frame cycles)
  · exact jam_frame hpc s

end

/-! ### The flags an operation on bytes writes -/

theorem addBinary_flagsKept (a m : Byte) (p : Flags) :
    FlagsKept { a := true, nz := true, v := true, c := true } p (addBinary a m p).2 where
  c := nofun
  nz := nofun
  v := nofun

theorem addDecimal_flagsKept (a m : Byte) (p : Flags) :
    FlagsKept { a := true, nz := true, v := true, c := true } p (addDecimal a m p).2 where
  c := nofun
  nz := nofun
  v := nofun

theorem opAdc_frame (m : Byte) (s : State) :
    Frame { a := true, nz := true, v := true, c := true } s (opAdc m s) := by
  unfold opAdc
  split
  · exact putA_frame rfl (addDecimal_flagsKept s.a m s.p)
  · exact putA_frame rfl (addBinary_flagsKept s.a m s.p)

/-- R145: a decimal subtraction has the flags of the binary one. -/
theorem opSbc_frame (m : Byte) (s : State) :
    Frame { a := true, nz := true, v := true, c := true } s (opSbc m s) := by
  have hflags := addBinary_flagsKept s.a (m ^^^ 0xFF#8) s.p
  unfold opSbc
  split <;> exact putA_frame rfl hflags

theorem compareFlags_flagsKept (r m : Byte) (p : Flags) :
    FlagsKept { nz := true, c := true } p (compareFlags r m p) where
  c := nofun
  nz := nofun

theorem bitFlags_flagsKept (a m : Byte) (p : Flags) : FlagsKept { nz := true, v := true } p (bitFlags a m p) where
  nz := nofun
  v := nofun

/-! ### Every instruction -/

/-- What an instruction writes, and `PC` for an undefined byte, whose skipped bytes or step back `writes` does not count
(R220). -/
def mayWrite (i : Instr) : Writes := { writes i with pc := (writes i).pc || i.isUndefined }

/-- R10, R20: every instruction changes what its row lists alone. -/
theorem exec_frame {i : Instr} {s t : State} (h : exec i s = .next t) : Frame (mayWrite i) s t := by
  cases i with
  -- Loads and logic into `A`.
  | ldaZp | ldaAbs | ldaZpx | ldaAbsy | ldaAbsx | andZp | andAbs | andZpx | andAbsy | andAbsx
  | oraZp | oraAbs | oraZpx | oraAbsy | oraAbsx | eorZp | eorAbs | eorZpx | eorAbsy | eorAbsx =>
    exact readInstr_frame h (.refl s) (fun _ _ => loadA_frame rfl rfl _)
  | ldaIndx b2 | andIndx b2 | oraIndx b2 | eorIndx b2 =>
    exact readInstr_frame h (modeIndx_frame b2 s) (fun _ _ => loadA_frame rfl rfl _)
  | ldaIndy b2 | andIndy b2 | oraIndy b2 | eorIndy b2 =>
    exact readInstr_frame h (modeIndy_frame b2 s) (fun _ _ => loadA_frame rfl rfl _)
  | ldaImm | andImm | oraImm | eorImm => exact immInstr_frame h (fun _ _ => loadA_frame rfl rfl _)
  -- Loads of `X` and `Y`.
  | ldxZp | ldxAbs | ldxZpy | ldxAbsy => exact readInstr_frame h (.refl s) (fun _ _ => loadX_frame rfl rfl _)
  | ldxImm => exact immInstr_frame h (fun _ _ => loadX_frame rfl rfl _)
  | ldyZp | ldyAbs | ldyZpx | ldyAbsx => exact readInstr_frame h (.refl s) (fun _ _ => loadY_frame rfl rfl _)
  | ldyImm => exact immInstr_frame h (fun _ _ => loadY_frame rfl rfl _)
  -- Stores.
  | staZp | staAbs | staZpx | staAbsy | staAbsx | stxZp | stxAbs | stxZpy | styZp | styAbs | styZpx =>
    exact writeInstr_frame h (.refl s)
  | staIndx b2 => exact writeInstr_frame h (modeIndx_frame b2 s)
  | staIndy b2 => exact writeInstr_frame h (modeIndy_frame b2 s)
  -- Add and subtract.
  | adcZp | adcAbs | adcZpx | adcAbsy | adcAbsx => exact readInstr_frame h (.refl s) opAdc_frame
  | adcIndx b2 => exact readInstr_frame h (modeIndx_frame b2 s) opAdc_frame
  | adcIndy b2 => exact readInstr_frame h (modeIndy_frame b2 s) opAdc_frame
  | adcImm => exact immInstr_frame h opAdc_frame
  | sbcZp | sbcAbs | sbcZpx | sbcAbsy | sbcAbsx => exact readInstr_frame h (.refl s) opSbc_frame
  | sbcIndx b2 => exact readInstr_frame h (modeIndx_frame b2 s) opSbc_frame
  | sbcIndy b2 => exact readInstr_frame h (modeIndy_frame b2 s) opSbc_frame
  | sbcImm => exact immInstr_frame h opSbc_frame
  -- Compares and the bit test.
  | cmpZp | cmpAbs | cmpZpx | cmpAbsy | cmpAbsx | cpxZp | cpxAbs | cpyZp | cpyAbs =>
    exact readInstr_frame h (.refl s) (fun _ _ => withP_frame (compareFlags_flagsKept _ _ _))
  | cmpIndx b2 => exact readInstr_frame h (modeIndx_frame b2 s) (fun _ _ => withP_frame (compareFlags_flagsKept _ _ _))
  | cmpIndy b2 => exact readInstr_frame h (modeIndy_frame b2 s) (fun _ _ => withP_frame (compareFlags_flagsKept _ _ _))
  | cmpImm | cpxImm | cpyImm => exact immInstr_frame h (fun _ _ => withP_frame (compareFlags_flagsKept _ _ _))
  | bitZp | bitAbs => exact readInstr_frame h (.refl s) (fun _ _ => withP_frame (bitFlags_flagsKept _ _ _))
  -- Increment, decrement, shifts and rotates.
  | incZp | incAbs | incZpx | incAbsx | decZp | decAbs | decZpx | decAbsx =>
    exact rmwInstr_frame h (.refl s) (fun _ _ => { nz := nofun })
  | aslZp | aslAbs | aslZpx | aslAbsx | lsrZp | lsrAbs | lsrZpx | lsrAbsx
  | rolZp | rolAbs | rolZpx | rolAbsx | rorZp | rorAbs | rorZpx | rorAbsx =>
    exact rmwInstr_frame h (.refl s) (fun _ _ => { c := nofun, nz := nofun })
  | aslAcc | lsrAcc | rolAcc | rorAcc => exact accInstr_frame h rfl (fun _ _ => { c := nofun, nz := nofun })
  -- Transfers and register counts.
  | txa | tya => exact impliedInstr_frame h (loadA_frame rfl rfl _)
  | tax | tsx | inx | dex => exact impliedInstr_frame h (loadX_frame rfl rfl _)
  | tay | iny | dey => exact impliedInstr_frame h (loadY_frame rfl rfl _)
  | txs => exact impliedInstr_frame h (withSp_frame rfl _)
  -- Flag instructions.
  | clc | sec => exact impliedInstr_frame h (withP_frame { c := nofun })
  | cli | sei => exact impliedInstr_frame h (withP_frame { i := nofun })
  | cld | sed => exact impliedInstr_frame h (withP_frame { d := nofun })
  | clv => exact impliedInstr_frame h (withP_frame { v := nofun })
  | nop => exact impliedInstr_frame h (.refl s)
  -- Control transfers.
  | bpl | bmi | bvc | bvs | bcc | bcs | bne | beq => exact branchInstr_frame h rfl
  | jmpAbs =>
    cases h
    exact (jump_frame rfl _).trans (retire_frame 3)
  | jmpInd ptr =>
    cases h
    exact (modeInd_frame ptr s).trans ((jump_frame rfl _).trans (retire_frame 5))
  | jsr =>
    cases h
    exact (pushWord_frame rfl s.pc s).trans
      ((fetchOperand_frame rfl _).trans ((jump_frame rfl _).trans (retire_frame 6)))
  | rts =>
    cases h
    exact (pullWord_frame rfl s).trans ((jump_frame rfl _).trans (retire_frame 6))
  | brk =>
    cases h
    exact (jump_frame rfl _).trans ((raiseInterrupt_frame rfl rfl rfl .brk s.advance).trans (retire_frame 7))
  | rti =>
    cases h
    exact (returnFromInterrupt_frame s).trans (retire_frame 6)
  -- Stack instructions.
  | pha | php =>
    cases h
    exact (push_frame rfl _ s).trans (retire_frame 3)
  | pla =>
    cases h
    exact (pull_frame rfl s).trans ((loadA_frame rfl rfl _).trans (retire_frame 4))
  | plp =>
    cases h
    exact (pull_frame rfl s).trans
      ((withP_frame (.of_all_written rfl rfl rfl rfl rfl)).trans (retire_frame 4))
  | undefined => exact execUndefined_frame h rfl

/-! ## What every step and every event keeps -/

/-- R276: a core step is an instruction or an interrupt check, by the phase, and none while the reset line is asserted. -/
theorem step_cases {s t : State} (h : step s = .next t) :
    s.resetLine = false ∧
      ((s.phase = .atFetch ∧ exec (fetchInstr s.beginStep).1 (fetchInstr s.beginStep).2 = .next t) ∨
        (s.phase = .atCheck ∧ t = interruptCheck s.beginStep)) := by
  unfold step at h
  split at h
  · cases h
  next hreset =>
    refine ⟨by simpa using hreset, ?_⟩
    split at h
    next hphase => exact .inl ⟨hphase, h⟩
    next hphase => exact .inr ⟨hphase, by cases h; rfl⟩

theorem step_atCheck {s : State} (hreset : s.resetLine = false) (hphase : s.phase = .atCheck) :
    step s = .next (interruptCheck s.beginStep) := by
  simp [step, hreset, hphase]

theorem beginStep_inv {s : State} (h : StateInv s) : StateInv s.beginStep := h.access h.platOk []

theorem fetchInstr_inv {s : State} (h : StateInv s) : StateInv (fetchInstr s).2 := by
  have hplat : (fetchInstr s).2.plat.Ok (fetchInstr s).2.cfg.addrWidth := fetchInstr_platOk h.platOk
  have hpc : (fetchInstr s).2.pc.toNat < 2 ^ (fetchInstr s).2.cfg.addrWidth := by simpa using fetchInstr_pc_lt s
  exact stateInv_iff.mpr ⟨by simpa using h.config, hpc, by simpa using h.cycZero, hplat⟩

/-- The end of an interrupt check: back to the fetch, the pending-cycle counter cleared (R234, R285). -/
theorem StateInv.toFetch {s : State} (h : StateInv s) (cycles : Nat) :
    StateInv { s with phase := .atFetch, cyc := 0, reported := cycles } :=
  stateInv_iff.mpr ⟨h.config, h.pcFits, rfl, h.platOk⟩

theorem raiseInterrupt_inv {s : State} (h : StateInv s) (k : InterruptKind) : StateInv (raiseInterrupt k s) :=
  (raiseInterrupt_frame (w := writes .brk) rfl rfl rfl k s).inv h

/-- R234: an entry or nothing, then the fetch. -/
theorem interruptCheck_inv {s : State} (h : StateInv s) : StateInv (interruptCheck s) := by
  unfold interruptCheck
  split
  · have hcleared : StateInv { s with nmiPending := false } := h.congr rfl rfl rfl rfl
    exact (raiseInterrupt_inv hcleared .nmi).toFetch 7
  · split
    · exact (raiseInterrupt_inv h .irq).toFetch 7
    · exact h.toFetch 0

/-- R271: the service loads `PC` from the reset vector, clears the pending-cycle counter and leaves the platform. -/
theorem resetService_inv {s : State} (h : StateInv s) : StateInv (resetService s) := by
  have hpc : (resetService s).pc.toNat < 2 ^ s.cfg.addrWidth := by
    rw [resetService_pc]
    exact mask_lt s _
  exact stateInv_iff.mpr (by simpa using ⟨h.config, hpc, h.platOk⟩)

/-- R280: the restored `PC` is masked; the parameters and the platform are the core's own. -/
theorem restore_inv {s : State} (h : StateInv s) {r : Saved} (hcyc : r.cyc = 0) : StateInv (s.restore r) :=
  stateInv_iff.mpr ⟨h.config, mask_lt s r.pc, hcyc, h.platOk⟩

/-- Settles O9: the fetch keeps the invariant, and so do the frame of the instruction and the interrupt check. -/
theorem stepKeepsInvariant : Obligations.StepKeepsInvariant := by
  unfold Obligations.StepKeepsInvariant
  intro s t hinv hstep
  have hbegun : StateInv s.beginStep := beginStep_inv hinv
  obtain ⟨-, ⟨-, hexec⟩ | ⟨-, rfl⟩⟩ := step_cases hstep
  · exact (exec_frame hexec).inv (fetchInstr_inv hbegun)
  · exact interruptCheck_inv hbegun

/-- Settles O10: the lines and the registers but `PC` are no part of the invariant; the other events mask the addresses they
take. -/
theorem eventKeepsInvariant : Obligations.EventKeepsInvariant := by
  unfold Obligations.EventKeepsInvariant
  intro s e h hrestore
  cases e with
  | assertIrq | clearIrq | assertNmi | clearNmi | clearReset | setA | setX | setY | setSp | setFlag | setP =>
    exact h.congr rfl rfl rfl rfl
  | assertReset =>
    have hasserted : StateInv { s with resetLine := true } := h.congr rfl rfl rfl rfl
    simp only [applyEvent, State.assertReset]
    split
    · exact h
    · exact resetService_inv hasserted
  | platform c => exact h.access (Platform.change_ok h.platOk c) s.bus
  | device n => exact h.access (M := { s.plat with devices := n }) ⟨h.memWf, h.memFits, h.viewWf, h.viewFits⟩ s.bus
  | setPc v => exact h.jump v
  | restore r => exact restore_inv h (hrestore r rfl)

/-! ## The frames of instructions -/

/-- Settles O52: the registers in the frame of an instruction (R10). -/
theorem registersHaveOnlyTheirWriters : Obligations.RegistersHaveOnlyTheirWriters := by
  unfold Obligations.RegistersHaveOnlyTheirWriters
  intro i s t h
  have hf := exec_frame h
  exact ⟨hf.a, hf.x, hf.y, hf.sp⟩

/-- Settles O53: the flags in the frame of an instruction (R20). -/
theorem flagsHaveOnlyTheirWriters : Obligations.FlagsHaveOnlyTheirWriters := by
  unfold Obligations.FlagsHaveOnlyTheirWriters
  intro i s t h
  have hf := (exec_frame h).flags
  exact ⟨hf.c, hf.nz, hf.i, hf.d, hf.v⟩

/-- Settles O55: no frame lets an input or a parameter differ (R21, R22, R42). -/
theorem instructionsLeaveInputsAlone : Obligations.InstructionsLeaveInputsAlone := by
  unfold Obligations.InstructionsLeaveInputsAlone
  intro i s t h
  exact (exec_frame h).inputs

/-- Settles O56: but for an undefined byte, `mayWrite` adds nothing to what `writes` says of `PC` (R183). -/
theorem sequentialInstructionsLeavePc : Obligations.SequentialInstructionsLeavePc := by
  unfold Obligations.SequentialInstructionsLeavePc
  intro i s t hdefined hpc h
  have hkept : (mayWrite i).pc = false := by simp [mayWrite, hpc, hdefined]
  exact (exec_frame h).pc hkept

/-! ## The stack -/

/-- Settles O22: `SP` is a byte, so its wrap mod 256 keeps the stack byte in its page (R13, R14, R15). -/
theorem stackStaysInItsPage : Obligations.StackStaysInItsPage := by
  unfold Obligations.StackStaysInItsPage
  intro s v h
  have hpushed : (push v s).sp.toNat = (s.sp.toNat + 255) % 256 := by
    rw [push_sp]
    bv_omega
  have hpulled : (pull s).2.sp.toNat = (s.sp.toNat + 1) % 256 := by
    rw [pull_sp]
    bv_omega
  have hstored (hram : IsRam s (stackAddr s.sp)) : byteAt (push v s) (stackAddr s.sp) = v :=
    push_read_same h.memWf hram
  have helsewhere (hplain : IsPlain s (stackAddr s.sp)) : MemorySameBut [stackAddr s.sp] s (push v s) :=
    fun a ha => push_read_other hplain (ha _ (List.mem_singleton_self _))
  have hread (hplain : IsPlain s (stackAddr (s.sp + 1#8))) :
      (pull s).1 = byteAt s (stackAddr (s.sp + 1#8)) ∧ (pull s).2.plat = s.plat := by
    rw [pull_plain hplain]
    exact ⟨rfl, rfl⟩
  exact ⟨toNat_stackAddr s.sp, hpushed, push_bus v s, hstored, helsewhere, hpulled, pull_bus s, hread⟩

/-! ## Reset and the NMI latch -/

/-- Settles O12: every byte reads as the fill byte, so the reset vector is 0 (R27, R271). -/
theorem resetStateValues : Obligations.ResetStateValues := by
  unfold Obligations.ResetStateValues
  have hbyte (addr : Addr) : byteAt State.reset addr = Memory.fill := Memory.read_nil _
  refine ⟨rfl, rfl, rfl, rfl, ?_⟩
  rw [hbyte, hbyte]
  decide

/-- Settles O17: the latch is or-ed with the complement of the old level; its entry and the reset service clear it (R22). -/
theorem nmiLatchIsEdgeTriggered : Obligations.NmiLatchIsEdgeTriggered := by
  unfold Obligations.NmiLatchIsEdgeTriggered
  intro s
  have hedge (hline : s.nmiLine = false) : (applyEvent .assertNmi s).nmiPending = true := by
    simp [applyEvent, State.assertNmi, hline]
  have hheld (hline : s.nmiLine = true) : (applyEvent .assertNmi s).nmiPending = s.nmiPending := by
    simp [applyEvent, State.assertNmi, hline]
  have hentry (hphase : s.phase = .atCheck) (hreset : s.resetLine = false) (hpending : s.nmiPending = true) :
      Answers (step s) fun t => t.nmiPending = false := by
    refine ⟨interruptCheck s.beginStep, step_atCheck hreset hphase, ?_⟩
    rw [interruptCheck_nmi (by exact hpending)]
    exact raiseInterrupt_nmiPending .nmi { s.beginStep with nmiPending := false }
  have hservice (hreset : s.resetLine = false) : (applyEvent .assertReset s).nmiPending = false := by
    simp [applyEvent, State.assertReset, hreset]
  exact ⟨hedge, hheld, rfl, rfl, rfl, hentry, hservice, rfl, rfl, rfl, rfl⟩

/-! ## Save and restore -/

/-- The count the last step reported, replaced. -/
def Machine.State.withReported (s : State) (n : Nat) : State := { s with reported := n }

/-- The fetch passes the count on. -/
theorem fetchInstr_withReported (s : State) (n : Nat) :
    fetchInstr (s.withReported n) = ((fetchInstr s).1, (fetchInstr s).2.withReported n) := by
  have hopcode : (fetchOpcode (s.withReported n)).1 = (fetchOpcode s).1 := rfl
  unfold fetchInstr
  simp only [hopcode]
  split <;> rfl

theorem skipOperands_withReported (k : Nat) (s : State) (n : Nat) :
    skipOperands k (s.withReported n) = (skipOperands k s).withReported n := by
  induction k generalizing s with
  | zero => rfl
  | succ k ih => exact ih (fetchOperand s).2

/-- R220: both outcomes that go on report a count of their own. -/
theorem execUndefined_withReported (op : Byte) (s : State) (n : Nat) :
    execUndefined op (s.withReported n) = execUndefined op s := by
  have hpolicy : (s.withReported n).cfg.undefPolicy = s.cfg.undefPolicy := rfl
  unfold execUndefined
  rw [hpolicy]
  split
  · rfl
  · split
    · rw [skipOperands_withReported]
      rfl
    · rfl
    · rfl
    · rfl

/-- R105: an instruction ends by reporting its own count, whatever the count before. -/
theorem exec_withReported (i : Instr) (s : State) (n : Nat) : exec i (s.withReported n) = exec i s := by
  cases i with
  | undefined op => exact execUndefined_withReported op s n
  | _ => rfl

/-- R285: so does an interrupt check. -/
theorem interruptCheck_withReported (s : State) (n : Nat) : interruptCheck (s.withReported n) = interruptCheck s :=
  rfl

/-- A step starts its own record of accesses and reports its own count: it does not see those of the step before. -/
theorem step_forgets_record (s : State) (n : Nat) (l : List BusAccess) :
    step { s with bus := l, reported := n } = step s := by
  have hbegin : ({ s with bus := l, reported := n } : State).beginStep = s.beginStep.withReported n := rfl
  unfold step
  rw [hbegin, fetchInstr_withReported, exec_withReported, interruptCheck_withReported]

/-- R280: what a saved state does not hold of the core is its bus, its parameters and the model's own fields. -/
theorem restore_save {s t : State} (hinv : StateInv s) (hcfg : t.cfg = s.cfg) (hplat : t.plat = s.plat)
    (hdraws : t.draws = s.draws) : t.restore s.save = { s with bus := t.bus, reported := t.reported } := by
  have hpc : t.mask s.pc = s.pc := by
    rw [State.mask_congr hcfg]
    exact maskTo_eq_self hinv.pcFits
  simp [State.restore, State.save, hpc, hcfg, hplat, hdraws]

/-- Settles O57: the restored core is the saved one but for the record of its last step, which no step sees (R280). -/
theorem restoredStateContinuesIdentically : Obligations.RestoredStateContinuesIdentically := by
  unfold Obligations.RestoredStateContinuesIdentically
  intro s t hinv hcfg hplat hdraws
  rw [restore_save hinv hcfg hplat hdraws]
  exact ⟨rfl, step_forgets_record s t.reported t.bus⟩

end Sys2Proof

/-! ## Accesses in order -/

namespace Sys2Proof

open Sys2Proof.Machine

/-! ### What an operation stores to -/

/-- The masked addresses that the writes of a list of accesses go to, in order. -/
def writtenTo : List BusAccess → List Addr
  | [] => []
  | .read _ _ _ :: l => writtenTo l
  | .write a _ :: l => a :: writtenTo l

theorem writtenTo_append (l m : List BusAccess) : writtenTo (l ++ m) = writtenTo l ++ writtenTo m := by
  induction l with
  | nil => rfl
  | cons b l ih =>
    cases b with
    | read => exact ih
    | write a _ => exact congrArg (a :: ·) ih

theorem mem_writtenTo {a : Addr} {l : List BusAccess} : a ∈ writtenTo l ↔ ∃ v, BusAccess.write a v ∈ l := by
  induction l with
  | nil => simp [writtenTo]
  | cons b l ih => cases b <;> simp [writtenTo, ih, exists_or]

theorem writtenTo_eq_nil {l : List BusAccess} : writtenTo l = [] ↔ ∀ a v, BusAccess.write a v ∉ l := by
  simp [List.eq_nil_iff_forall_not_mem, mem_writtenTo]

/-- From `s` to `t` accesses were made one at a time and recorded, and their writes went to `addrs`, in order. -/
def StoresTo (addrs : List Addr) (s t : State) : Prop :=
  ∃ l, Does s l t ∧ writtenTo l = addrs.map s.mask

section

variable {p q : List Addr} {s t u : State}

theorem StoresTo.trans (h : StoresTo p s t) (h' : StoresTo q t u) : StoresTo (p ++ q) s u := by
  obtain ⟨l, hl, hp⟩ := h
  obtain ⟨m, hm, hq⟩ := h'
  have hmask : t.mask = s.mask := funext (State.mask_congr hl.cfg)
  exact ⟨l ++ m, hl.trans hm, by rw [writtenTo_append, hp, hq, hmask, List.map_append]⟩

/-- An operation that makes no write stores nowhere. -/
theorem Machine.Does.storesNowhere {l : List BusAccess} (h : Does s l t) (hl : ∀ a v, BusAccess.write a v ∉ l) :
    StoresTo [] s t :=
  ⟨l, h, writtenTo_eq_nil.mpr hl⟩

/-- An update of registers alone makes no access. -/
theorem StoresTo.none (hbus : t.bus = s.bus) (hcfg : t.cfg = s.cfg) (hplat : t.plat = s.plat) : StoresTo [] s t :=
  (Does.none hbus hcfg hplat).storesNowhere (by simp)

/-- An update of registers after the accesses adds none. -/
theorem StoresTo.thenRegisters (h : StoresTo p s t) (hbus : u.bus = t.bus) (hcfg : u.cfg = t.cfg)
    (hplat : u.plat = t.plat) : StoresTo p s u := by
  simpa using h.trans (.none hbus hcfg hplat)

theorem memWrite_storesTo (addr : Addr) (v : Byte) (s : State) : StoresTo [addr] s (memWrite addr v s) :=
  ⟨_, memWrite_does addr v s, rfl⟩

theorem push_storesTo (v : Byte) (s : State) : StoresTo [stackAddr s.sp] s (push v s) :=
  ⟨_, push_does v s, rfl⟩

theorem pushWord_storesTo (v : Addr) (s : State) :
    StoresTo [stackAddr s.sp, stackAddr (s.sp - 1#8)] s (pushWord v s) :=
  ⟨_, pushWord_does v s, rfl⟩

theorem pull_storesTo (s : State) : StoresTo [] s (pull s).2 := ⟨_, pull_does s, rfl⟩

theorem pullWord_storesTo (s : State) : StoresTo [] s (pullWord s).2 := ⟨_, pullWord_does s, rfl⟩

theorem fetchOperand_storesTo (s : State) : StoresTo [] s (fetchOperand s).2 := ⟨_, fetchOperand_does s, rfl⟩

theorem raiseInterrupt_storesTo (k : InterruptKind) (s : State) :
    StoresTo [stackAddr s.sp, stackAddr (s.sp - 1#8), stackAddr (s.sp - 1#8 - 1#8)] s (raiseInterrupt k s) := by
  obtain ⟨lo, hi, hdoes, -⟩ := raiseInterrupt_does k s
  exact ⟨_, hdoes, rfl⟩

theorem returnFromInterrupt_storesTo (s : State) : StoresTo [] s (returnFromInterrupt s) :=
  ⟨_, returnFromInterrupt_does s, rfl⟩

theorem modeIndx_storesTo (b2 : Byte) (s : State) : StoresTo [] s (modeIndx b2 s).st := by
  obtain ⟨l, hdoes, hreads⟩ := modeIndx_does b2 s
  exact hdoes.storesNowhere hreads

theorem modeIndy_storesTo (b2 : Byte) (s : State) : StoresTo [] s (modeIndy b2 s).st := by
  obtain ⟨l, hdoes, hreads⟩ := modeIndy_does b2 s
  exact hdoes.storesNowhere hreads

theorem modeInd_storesTo (ptr : Addr) (s : State) : StoresTo [] s (modeInd ptr s).2 := by
  obtain ⟨l, hdoes, hreads⟩ := modeInd_does ptr s
  exact hdoes.storesNowhere hreads

theorem fetchInstr_storesTo (s : State) : StoresTo [] s (fetchInstr s).2 := by
  obtain ⟨l, hdoes, hreads⟩ := fetchInstr_does s
  exact hdoes.storesNowhere hreads

theorem readInstr_storesTo {r : Resolved} {base : Nat} {f : Byte → State → State} (h : readInstr r base f = .next t)
    (hr : StoresTo [] s r.st) (hf : ∀ m u, (f m u).bus = u.bus ∧ (f m u).cfg = u.cfg ∧ (f m u).plat = u.plat) :
    StoresTo [] s t := by
  obtain ⟨l, hdoes, hl⟩ := hr
  exact ⟨_, readInstr_does h hdoes hf, by rw [writtenTo_append, hl]; rfl⟩

theorem writeInstr_storesTo {r : Resolved} {base : Nat} {v : Byte} (h : writeInstr r base v = .next t)
    (hr : StoresTo [] s r.st) : StoresTo [r.ea] s t := by
  obtain ⟨l, hdoes, hl⟩ := hr
  exact ⟨_, writeInstr_does h hdoes, by rw [writtenTo_append, hl]; rfl⟩

theorem rmwInstr_storesTo {r : Resolved} {base : Nat} {f : Byte → Flags → Byte × Flags}
    (h : rmwInstr r base f = .next t) (hr : StoresTo [] s r.st) : StoresTo [r.ea] s t := by
  obtain ⟨l, hdoes, hl⟩ := hr
  obtain ⟨v, hdoes'⟩ := rmwInstr_does h hdoes
  exact ⟨_, hdoes', by rw [writtenTo_append, hl]; rfl⟩

theorem branchInstr_storesTo {taken : Bool} {b2 : Byte} (h : branchInstr taken b2 s = .next t) :
    StoresTo [] s t := by
  unfold branchInstr at h
  split at h <;> (cases h; exact .none rfl rfl rfl)

/-- R220: skipped bytes are only read, and a step back makes no access. -/
theorem execUndefined_storesTo {op : Byte} (h : execUndefined op s = .next t) : StoresTo [] s t := by
  obtain ⟨-, len, cycles, -, -, rfl⟩ | ⟨-, -, -, rfl⟩ := execUndefined_next h
  · obtain ⟨l, hdoes, hreads⟩ := skipOperands_does (len - 1) s
    exact (hdoes.storesNowhere hreads).thenRegisters rfl rfl rfl
  · exact .none rfl rfl rfl

end

/-- R53, R90: every instruction makes its accesses one at a time, records them, and stores to its `storedAddrs` in order. -/
theorem exec_storesTo {i : Instr} {s t : State} (h : exec i s = .next t) : StoresTo (storedAddrs i s) s t := by
  have here : StoresTo [] s s := .none rfl rfl rfl
  cases i with
  -- Read class.
  | ldaZp | ldaAbs | ldaZpx | ldaAbsy | ldaAbsx | ldxZp | ldxAbs | ldxZpy | ldxAbsy | ldyZp | ldyAbs | ldyZpx | ldyAbsx
  | adcZp | adcAbs | adcZpx | adcAbsy | adcAbsx | sbcZp | sbcAbs | sbcZpx | sbcAbsy | sbcAbsx
  | cmpZp | cmpAbs | cmpZpx | cmpAbsy | cmpAbsx | cpxZp | cpxAbs | cpyZp | cpyAbs
  | andZp | andAbs | andZpx | andAbsy | andAbsx | oraZp | oraAbs | oraZpx | oraAbsy | oraAbsx
  | eorZp | eorAbs | eorZpx | eorAbsy | eorAbsx | bitZp | bitAbs =>
    exact readInstr_storesTo h here (fun _ _ => ⟨rfl, rfl, rfl⟩)
  | ldaIndx b2 | adcIndx b2 | sbcIndx b2 | cmpIndx b2 | andIndx b2 | oraIndx b2 | eorIndx b2 =>
    exact readInstr_storesTo h (modeIndx_storesTo b2 s) (fun _ _ => ⟨rfl, rfl, rfl⟩)
  | ldaIndy b2 | adcIndy b2 | sbcIndy b2 | cmpIndy b2 | andIndy b2 | oraIndy b2 | eorIndy b2 =>
    exact readInstr_storesTo h (modeIndy_storesTo b2 s) (fun _ _ => ⟨rfl, rfl, rfl⟩)
  -- Write class.
  | staZp | staAbs | staZpx | staAbsy | staAbsx | stxZp | stxAbs | stxZpy | styZp | styAbs | styZpx =>
    exact writeInstr_storesTo h here
  | staIndx b2 => exact writeInstr_storesTo h (modeIndx_storesTo b2 s)
  | staIndy b2 => exact writeInstr_storesTo h (modeIndy_storesTo b2 s)
  -- Read-modify-write class.
  | incZp | incAbs | incZpx | incAbsx | decZp | decAbs | decZpx | decAbsx | aslZp | aslAbs | aslZpx | aslAbsx
  | lsrZp | lsrAbs | lsrZpx | lsrAbsx | rolZp | rolAbs | rolZpx | rolAbsx | rorZp | rorAbs | rorZpx | rorAbsx =>
    exact rmwInstr_storesTo h here
  -- Immediate, accumulator and implied forms on registers and flags, and the jump to an operand.
  | ldaImm | ldxImm | ldyImm | adcImm | sbcImm | cmpImm | cpxImm | cpyImm | andImm | oraImm | eorImm
  | aslAcc | lsrAcc | rolAcc | rorAcc | tax | tay | txa | tya | tsx | txs | inx | iny | dex | dey
  | clc | sec | cli | sei | cld | sed | clv | nop | jmpAbs =>
    cases h
    exact .none rfl rfl rfl
  -- Control transfers.
  | bpl | bmi | bvc | bvs | bcc | bcs | bne | beq => exact branchInstr_storesTo h
  | jmpInd ptr =>
    cases h
    exact (modeInd_storesTo ptr s).thenRegisters rfl rfl rfl
  | jsr =>
    cases h
    exact ((pushWord_storesTo s.pc s).trans (fetchOperand_storesTo _)).thenRegisters rfl rfl rfl
  | rts =>
    cases h
    exact (pullWord_storesTo s).thenRegisters rfl rfl rfl
  | brk =>
    cases h
    have advanced : StoresTo [] s s.advance := .none rfl rfl rfl
    exact (advanced.trans (raiseInterrupt_storesTo .brk s.advance)).thenRegisters rfl rfl rfl
  | rti =>
    cases h
    exact (returnFromInterrupt_storesTo s).thenRegisters rfl rfl rfl
  -- Stack instructions.
  | pha | php =>
    cases h
    exact (push_storesTo _ s).thenRegisters rfl rfl rfl
  | pla | plp =>
    cases h
    exact (pull_storesTo s).thenRegisters rfl rfl rfl
  | undefined => exact execUndefined_storesTo h

/-! ### The platform after a step -/

/-- R234, R236: the accesses of an interrupt check are those of the entry it takes, if any. -/
theorem interruptCheck_does (s : State) : ∃ l, Does s l (interruptCheck s) := by
  unfold interruptCheck
  split
  · obtain ⟨l, hdoes, -⟩ := raiseInterrupt_storesTo .nmi { s with nmiPending := false }
    exact ⟨l, hdoes.bus, hdoes.cfg, hdoes.plat⟩
  · split
    · obtain ⟨l, hdoes, -⟩ := raiseInterrupt_storesTo .irq s
      exact ⟨l, hdoes.bus, hdoes.cfg, hdoes.plat⟩
    · exact ⟨[], .none rfl rfl rfl⟩

/-- R276: the accesses of a core step, whose record starts empty. -/
theorem step_does {s t : State} (h : step s = .next t) : ∃ l, Does s.beginStep l t := by
  obtain ⟨-, ⟨-, hexec⟩ | ⟨-, rfl⟩⟩ := step_cases h
  · obtain ⟨l, hfetched, -⟩ := fetchInstr_storesTo s.beginStep
    obtain ⟨m, hdone, -⟩ := exec_storesTo hexec
    exact ⟨l ++ m, hfetched.trans hdone⟩
  · exact interruptCheck_does s.beginStep

/-- Settles O60: the recorded accesses of a step and of an instruction are the ones its operations made in turn (R43, R56). -/
theorem accessesChangeThePlatformInOrder : Obligations.AccessesChangeThePlatformInOrder := by
  unfold Obligations.AccessesChangeThePlatformInOrder
  constructor
  · intro s t h
    obtain ⟨l, hdoes⟩ := step_does h
    have hbus : t.bus = l := hdoes.bus
    rw [hbus]
    exact hdoes.plat
  · intro i s t h
    obtain ⟨l, hdoes, -⟩ := exec_storesTo h
    exact ⟨l, hdoes.bus, hdoes.plat⟩

/-- Settles O54: the writes of an instruction are at its stored addresses alone, and accesses of plain cells change the
program space only where they write (R43, R53, R56). -/
theorem memoryChangesOnlyWhereStored : Obligations.MemoryChangesOnlyWhereStored := by
  unfold Obligations.MemoryChangesOnlyWhereStored
  intro i s t h honly
  obtain ⟨l, hdoes, hwritten⟩ := exec_storesTo h
  have hplain : ∀ b ∈ l, s.plat.kindAt b.addr ≠ .device := hdoes.onlyPlain.mp honly
  have hmemory : MemorySameBut (storedAddrs i s) s t := by
    intro k hk
    refine hdoes.plat.read_other hplain fun a v hwrite => ?_
    have ha : a ∈ (storedAddrs i s).map s.mask := hwritten ▸ mem_writtenTo.mpr ⟨v, hwrite⟩
    obtain ⟨b, hb, rfl⟩ := List.mem_map.mp ha
    exact hk b hb
  have hplatform (hnone : storedAddrs i s = []) : t.plat = s.plat :=
    hdoes.plat.reads hplain (writtenTo_eq_nil.mp (by simp [hwritten, hnone]))
  have hview (hcase : s.cfg.hasOpcodeView = false ∨ storedAddrs i s = []) : t.opcodeView = s.opcodeView := by
    obtain hno | hnone := hcase
    · exact hdoes.plat.view hplain hno
    · exact congrArg Platform.opcodeView (hplatform hnone)
  exact ⟨hmemory, hview, hplatform⟩

/-! ### What a later access sees -/

/-- An operand fetch after a jump to a plain cell gives the byte the cell holds (R48). -/
theorem fetchOperand_jump_plain {s : State} {addr : Addr} (h : IsPlain s addr) :
    (fetchOperand (s.jump addr)).1 = byteAt s addr := by
  rw [fetchOperand_plain (by simpa using h)]
  simp [byteAt, State.mem]

/-- So does an opcode fetch where there is no separate opcode view (R47). -/
theorem fetchOpcode_jump_plain {s : State} {addr : Addr} (h : IsPlain s addr) (hview : s.cfg.hasOpcodeView = false) :
    (fetchOpcode (s.jump addr)).1 = byteAt s addr := by
  rw [fetchOpcode_plain (by simpa using h)]
  simp [opcodeByteAt, byteAt, State.mem, hview]

/-- Settles O21: after accesses of plain cells a RAM cell holds what was last written to it, and a fetch reads that cell
(R59). -/
theorem storeIsSeenByFetch : Obligations.StoreIsSeenByFetch := by
  unfold Obligations.StoreIsSeenByFetch
  intro i s t addr v hinv h honly hram hlast
  obtain ⟨l, hdoes, -⟩ := exec_storesTo h
  have hplain : ∀ b ∈ l, s.plat.kindAt b.addr ≠ .device := hdoes.onlyPlain.mp honly
  have hmask : t.mask addr = s.mask addr := State.mask_congr hdoes.cfg addr
  have hplainAfter : IsPlain t addr := by
    have hkind : t.kindAt (s.mask addr) = s.kindAt (s.mask addr) := Platform.kindAt_congr (hdoes.plat.regions hplain) _
    simp [IsPlain, hmask, hkind, hram]
  have hbyte : byteAt t addr = v := by
    rw [hdoes.newAccesses] at hlast
    rw [byteAt, hmask, State.mem, hdoes.plat.read_ram hplain hinv.memWf hram, hlast]
    rfl
  have hoperand : (fetchOperand (t.jump addr)).1 = v := by rw [fetchOperand_jump_plain hplainAfter, hbyte]
  have hopcode (hview : s.cfg.hasOpcodeView = false) : (fetchOpcode (t.jump addr)).1 = v := by
    rw [fetchOpcode_jump_plain hplainAfter (by rw [hdoes.cfg, hview]), hbyte]
  exact ⟨hoperand, hopcode⟩

/-- A data read of a plain cell after a store to a plain cell gives what the cell then holds (R43). -/
theorem memRead_memWrite_plain {s : State} {a b : Addr} {v : Byte} (ha : IsPlain s a) (hb : IsPlain s b) :
    (memRead b (memWrite a v s)).1 = byteAt (memWrite a v s) b := by
  have hkind : (memWrite a v s).kindAt (s.mask b) = s.kindAt (s.mask b) := busWrite_kindAt ha _
  rw [memRead_plain (by simpa [hkind] using hb)]
  rfl

/-- Settles O20: the cell read is the cell written, or another one that the store leaves (R43, R56). -/
theorem readGivesLatestStore : Obligations.ReadGivesLatestStore := by
  unfold Obligations.ReadGivesLatestStore
  intro s a b v hinv
  have hsame (hram : IsRam s a) : (memRead a (memWrite a v s)).1 = v := by
    have ha : IsPlain s a := by simp [IsPlain, hram]
    rw [memRead_memWrite_plain ha ha]
    exact memWrite_read_same hinv.memWf hram
  have hother (ha : IsPlain s a) (hb : IsPlain s b) (hne : s.mask a ≠ s.mask b) :
      (memRead b (memWrite a v s)).1 = byteAt s b := by
    rw [memRead_memWrite_plain ha hb]
    exact memWrite_read_other ha fun heq => hne (BitVec.eq_of_toNat_eq heq)
  exact ⟨hsame, hother⟩

/-! ### The mask -/

theorem busRead_mask (k : ReadKind) (a : Addr) (s : State) : busRead k (s.mask a) s = busRead k a s := by
  simp [busRead]

theorem busWrite_mask (a : Addr) (v : Byte) (s : State) : busWrite (s.mask a) v s = busWrite a v s := by
  simp [busWrite]

theorem busObserve_mask (k : ReadKind) (a : Addr) (s : State) : busObserve k (s.mask a) s = busObserve k a s := by
  simp [busObserve]

/-- Settles O19: an access uses its address through the mask alone, and masking again changes nothing (R40). -/
theorem accessesMaskTheirAddress : Obligations.AccessesMaskTheirAddress := by
  unfold Obligations.AccessesMaskTheirAddress
  constructor
  · intro s a v k
    refine ⟨s.mask a, toNat_maskTo _ a, rfl, rfl, (busRead_mask k a s).symm, (busWrite_mask a v s).symm, ?_, ?_⟩
    · rw [State.debugRead, State.debugRead, busObserve_mask]
    · rw [State.debugReadDecrypted, State.debugReadDecrypted, busObserve_mask]
  · intro s hw
    rw [State.mask, hw]
    decide

/-! ## Forms and their classes -/

/-! ### What each memory form means -/

/-- A form has its opcode byte, its meaning is `use` of what its mode yields and of its cycle count, and its mode changes
nothing of the core but what the recorded accesses change. -/
structure Form.Means (use : Resolved → Nat → State → Result) (f : Form) : Prop where
  opcode : (encode f.instr).head? = some f.opcode
  exec : ∀ s, exec f.instr s = use (f.mode s) f.cycles s
  registers : ∀ s, f.resolvedState s = { s with plat := (f.resolvedState s).plat, bus := (f.resolvedState s).bus }

/-- A read-class form with the operation `op` on the byte read (R90). -/
abbrev Form.Reads (op : Byte → State → State) (f : Form) : Prop :=
  f.Means fun r cycles _ => readInstr r cycles op

/-- A write-class form that stores `value` (R90). -/
abbrev Form.Writes (value : State → Byte) (f : Form) : Prop :=
  f.Means fun r cycles s => writeInstr r cycles (value s)

/-- A read-modify-write form with the operation `op` on the byte read (R90). -/
abbrev Form.Modifies (op : Byte → Flags → Byte × Flags) (f : Form) : Prop :=
  f.Means fun r cycles _ => rmwInstr r cycles op

section

variable {b : Byte} {w : Addr} {f : Form}

theorem reads_of_mem_ldaForms (h : f ∈ ldaForms b w) : f.Reads opLda := by
  unfold ldaForms at h
  fin_cases h <;> exact ⟨rfl, fun _ => rfl, fun _ => rfl⟩

theorem reads_of_mem_ldxForms (h : f ∈ ldxForms b w) : f.Reads opLdx := by
  unfold ldxForms at h
  fin_cases h <;> exact ⟨rfl, fun _ => rfl, fun _ => rfl⟩

theorem reads_of_mem_ldyForms (h : f ∈ ldyForms b w) : f.Reads opLdy := by
  unfold ldyForms at h
  fin_cases h <;> exact ⟨rfl, fun _ => rfl, fun _ => rfl⟩

theorem reads_of_mem_adcForms (h : f ∈ adcForms b w) : f.Reads opAdc := by
  unfold adcForms at h
  fin_cases h <;> exact ⟨rfl, fun _ => rfl, fun _ => rfl⟩

theorem reads_of_mem_sbcForms (h : f ∈ sbcForms b w) : f.Reads opSbc := by
  unfold sbcForms at h
  fin_cases h <;> exact ⟨rfl, fun _ => rfl, fun _ => rfl⟩

theorem reads_of_mem_cmpForms (h : f ∈ cmpForms b w) : f.Reads opCmp := by
  unfold cmpForms at h
  fin_cases h <;> exact ⟨rfl, fun _ => rfl, fun _ => rfl⟩

theorem reads_of_mem_cpxForms (h : f ∈ cpxForms b w) : f.Reads opCpx := by
  unfold cpxForms at h
  fin_cases h <;> exact ⟨rfl, fun _ => rfl, fun _ => rfl⟩

theorem reads_of_mem_cpyForms (h : f ∈ cpyForms b w) : f.Reads opCpy := by
  unfold cpyForms at h
  fin_cases h <;> exact ⟨rfl, fun _ => rfl, fun _ => rfl⟩

theorem reads_of_mem_andForms (h : f ∈ andForms b w) : f.Reads opAnd := by
  unfold andForms at h
  fin_cases h <;> exact ⟨rfl, fun _ => rfl, fun _ => rfl⟩

theorem reads_of_mem_oraForms (h : f ∈ oraForms b w) : f.Reads opOra := by
  unfold oraForms at h
  fin_cases h <;> exact ⟨rfl, fun _ => rfl, fun _ => rfl⟩

theorem reads_of_mem_eorForms (h : f ∈ eorForms b w) : f.Reads opEor := by
  unfold eorForms at h
  fin_cases h <;> exact ⟨rfl, fun _ => rfl, fun _ => rfl⟩

theorem reads_of_mem_bitForms (h : f ∈ bitForms b w) : f.Reads opBit := by
  unfold bitForms at h
  fin_cases h <;> exact ⟨rfl, fun _ => rfl, fun _ => rfl⟩

theorem writes_of_mem_staForms (h : f ∈ staForms b w) : f.Writes State.a := by
  unfold staForms at h
  fin_cases h <;> exact ⟨rfl, fun _ => rfl, fun _ => rfl⟩

theorem writes_of_mem_stxForms (h : f ∈ stxForms b w) : f.Writes State.x := by
  unfold stxForms at h
  fin_cases h <;> exact ⟨rfl, fun _ => rfl, fun _ => rfl⟩

theorem writes_of_mem_styForms (h : f ∈ styForms b w) : f.Writes State.y := by
  unfold styForms at h
  fin_cases h <;> exact ⟨rfl, fun _ => rfl, fun _ => rfl⟩

theorem modifies_of_mem_incForms (h : f ∈ incForms b w) : f.Modifies increment := by
  unfold incForms at h
  fin_cases h <;> exact ⟨rfl, fun _ => rfl, fun _ => rfl⟩

theorem modifies_of_mem_decForms (h : f ∈ decForms b w) : f.Modifies decrement := by
  unfold decForms at h
  fin_cases h <;> exact ⟨rfl, fun _ => rfl, fun _ => rfl⟩

theorem modifies_of_mem_aslForms (h : f ∈ aslForms b w) : f.Modifies shiftLeft := by
  unfold aslForms at h
  fin_cases h <;> exact ⟨rfl, fun _ => rfl, fun _ => rfl⟩

theorem modifies_of_mem_lsrForms (h : f ∈ lsrForms b w) : f.Modifies shiftRight := by
  unfold lsrForms at h
  fin_cases h <;> exact ⟨rfl, fun _ => rfl, fun _ => rfl⟩

theorem modifies_of_mem_rolForms (h : f ∈ rolForms b w) : f.Modifies rotateLeft := by
  unfold rolForms at h
  fin_cases h <;> exact ⟨rfl, fun _ => rfl, fun _ => rfl⟩

theorem modifies_of_mem_rorForms (h : f ∈ rorForms b w) : f.Modifies rotateRight := by
  unfold rorForms at h
  fin_cases h <;> exact ⟨rfl, fun _ => rfl, fun _ => rfl⟩

/-- R90: every read-class form reads by an operation on registers, which makes no access. -/
theorem reads_of_mem_readForms (h : f ∈ readForms b w) : ∃ op, f.Reads op ∧ ∀ m u, (op m u).bus = u.bus := by
  simp only [readForms, List.mem_append, or_assoc] at h
  rcases h with h | h | h | h | h | h | h | h | h | h | h | h
  · exact ⟨opLda, reads_of_mem_ldaForms h, fun _ _ => rfl⟩
  · exact ⟨opLdx, reads_of_mem_ldxForms h, fun _ _ => rfl⟩
  · exact ⟨opLdy, reads_of_mem_ldyForms h, fun _ _ => rfl⟩
  · exact ⟨opAdc, reads_of_mem_adcForms h, fun _ _ => rfl⟩
  · exact ⟨opSbc, reads_of_mem_sbcForms h, fun _ _ => rfl⟩
  · exact ⟨opCmp, reads_of_mem_cmpForms h, fun _ _ => rfl⟩
  · exact ⟨opCpx, reads_of_mem_cpxForms h, fun _ _ => rfl⟩
  · exact ⟨opCpy, reads_of_mem_cpyForms h, fun _ _ => rfl⟩
  · exact ⟨opAnd, reads_of_mem_andForms h, fun _ _ => rfl⟩
  · exact ⟨opOra, reads_of_mem_oraForms h, fun _ _ => rfl⟩
  · exact ⟨opEor, reads_of_mem_eorForms h, fun _ _ => rfl⟩
  · exact ⟨opBit, reads_of_mem_bitForms h, fun _ _ => rfl⟩

theorem writes_of_mem_writeForms (h : f ∈ writeForms b w) : ∃ value, f.Writes value := by
  simp only [writeForms, List.mem_append, or_assoc] at h
  rcases h with h | h | h
  · exact ⟨State.a, writes_of_mem_staForms h⟩
  · exact ⟨State.x, writes_of_mem_stxForms h⟩
  · exact ⟨State.y, writes_of_mem_styForms h⟩

theorem modifies_of_mem_rmwForms (h : f ∈ rmwForms b w) : ∃ op, f.Modifies op := by
  simp only [rmwForms, List.mem_append, or_assoc] at h
  rcases h with h | h | h | h | h | h
  · exact ⟨increment, modifies_of_mem_incForms h⟩
  · exact ⟨decrement, modifies_of_mem_decForms h⟩
  · exact ⟨shiftLeft, modifies_of_mem_aslForms h⟩
  · exact ⟨shiftRight, modifies_of_mem_lsrForms h⟩
  · exact ⟨rotateLeft, modifies_of_mem_rolForms h⟩
  · exact ⟨rotateRight, modifies_of_mem_rorForms h⟩

/-! ### The accesses of each class -/

theorem Form.Means.mask {use : Resolved → Nat → State → Result} (h : f.Means use) (s : State) :
    (f.mode s).st.mask = s.mask := by
  have hcfg : (f.resolvedState s).cfg = s.cfg := by rw [h.registers s]
  exact funext (State.mask_congr hcfg)

theorem Form.Reads.answers_bus {op : Byte → State → State} (h : f.Reads op) (hop : ∀ m u, (op m u).bus = u.bus)
    (s : State) : Answers (exec f.instr s) fun t =>
      t.bus = (f.resolvedState s).bus ++ [.read .data (s.mask (f.ea s)) (f.operand s)] := by
  refine ⟨_, (h.exec s).trans (readInstr_eq _ _ _), ?_⟩
  simp only [State.retire_bus, hop, memRead_bus, h.mask s]
  rfl

theorem Form.Writes.answers_bus {value : State → Byte} (h : f.Writes value) (s : State) :
    Answers (exec f.instr s) fun t => t.bus = (f.resolvedState s).bus ++ [.write (s.mask (f.ea s)) (value s)] := by
  refine ⟨_, (h.exec s).trans (writeInstr_eq _ _ _), ?_⟩
  simp only [State.retire_bus, memWrite_bus, h.mask s]
  rfl

theorem Form.Modifies.answers_bus {op : Byte → Flags → Byte × Flags} (h : f.Modifies op) (s : State) :
    Answers (exec f.instr s) fun t =>
      t.bus = (f.resolvedState s).bus ++
        [.read .data (s.mask (f.ea s)) (f.operand s),
          .write (s.mask (f.ea s)) (op (f.operand s) (f.resolvedState s).p).1] := by
  refine ⟨_, (h.exec s).trans (rmwInstr_eq _ _ _), ?_⟩
  simp only [State.retire_bus, State.withP_bus, memWrite_bus, memRead_mask, memRead_bus, h.mask s, List.append_assoc]
  rfl

end

/-- R91, R92, R93: an operand that is no memory byte costs no access; the instruction works on registers and flags. -/
theorem noAccessForms_answers {i : Instr} {m : Byte} (h : i ∈ noAccessForms m) (s : State) :
    Answers (exec i s) fun t => t.bus = s.bus ∧ t.plat = s.plat := by
  unfold noAccessForms at h
  fin_cases h <;> exact ⟨_, rfl, rfl, rfl⟩

/-- Settles O26: each form is of its class (R90), and the class fixes the accesses (R53, R91 to R93). -/
theorem classesMakeExactlyTheirAccesses : Obligations.ClassesMakeExactlyTheirAccesses := by
  unfold Obligations.ClassesMakeExactlyTheirAccesses
  intro b w s
  refine ⟨fun f hf => ?_, fun f hf => ?_, fun f hf => ?_, fun i hi => noAccessForms_answers hi s⟩
  · obtain ⟨op, hreads, hop⟩ := reads_of_mem_readForms hf
    exact hreads.answers_bus hop s
  · obtain ⟨value, hwrites⟩ := writes_of_mem_writeForms hf
    obtain ⟨t, hexec, hbus⟩ := hwrites.answers_bus s
    exact ⟨t, hexec, value s, hbus⟩
  · obtain ⟨op, hmodifies⟩ := modifies_of_mem_rmwForms hf
    obtain ⟨t, hexec, hbus⟩ := hmodifies.answers_bus s
    exact ⟨t, hexec, _, hbus⟩

/-! ## Safety -/

/-! ### Documented instructions complete -/

/-- What an instruction that completes answers: the interrupt check is next, no cycle is pending, and the count is one that
R285 gives to instructions. -/
def Completes (o : Result) : Prop :=
  Answers o fun t => t.phase = .atCheck ∧ t.cyc = 0 ∧ 2 ≤ t.reported ∧ t.reported ≤ 7

theorem retire_completes (u : State) {n : Nat} (hlow : 2 ≤ n) (hhigh : n ≤ 7) : Completes (.next (u.retire n)) :=
  ⟨_, rfl, rfl, rfl, hlow, hhigh⟩

/-- R103: the penalty adds at most one cycle. -/
theorem readInstr_completes (r : Resolved) {base : Nat} (f : Byte → State → State) (hlow : 2 ≤ base)
    (hhigh : base ≤ 6) : Completes (readInstr r base f) := by
  have hpenalty : r.penalty ≤ 1 := by
    rw [penalty_eq]
    split <;> omega
  rw [readInstr_eq]
  exact retire_completes _ (by omega) (by omega)

/-- R104: two cycles not taken, three taken, four across a page. -/
theorem branchInstr_completes (taken : Bool) (b2 : Byte) (s : State) : Completes (branchInstr taken b2 s) := by
  unfold branchInstr
  split
  · exact retire_completes _ (by split <;> decide) (by split <;> decide)
  · exact retire_completes s (by decide) (by decide)

/-- R105: every instruction but an undefined byte ends by retiring. -/
theorem exec_completes {i : Instr} (h : i.isUndefined = false) (s : State) : Completes (exec i s) := by
  cases i with
  -- The count depends on a page crossed.
  | ldaIndx | ldaZp | ldaAbs | ldaIndy | ldaZpx | ldaAbsy | ldaAbsx | ldxZp | ldxAbs | ldxZpy | ldxAbsy
  | ldyZp | ldyAbs | ldyZpx | ldyAbsx | adcIndx | adcZp | adcAbs | adcIndy | adcZpx | adcAbsy | adcAbsx
  | sbcIndx | sbcZp | sbcAbs | sbcIndy | sbcZpx | sbcAbsy | sbcAbsx | cmpIndx | cmpZp | cmpAbs | cmpIndy | cmpZpx
  | cmpAbsy | cmpAbsx | cpxZp | cpxAbs | cpyZp | cpyAbs | andIndx | andZp | andAbs | andIndy | andZpx | andAbsy
  | andAbsx | oraIndx | oraZp | oraAbs | oraIndy | oraZpx | oraAbsy | oraAbsx | eorIndx | eorZp | eorAbs | eorIndy
  | eorZpx | eorAbsy | eorAbsx | bitZp | bitAbs =>
    exact readInstr_completes _ _ (by decide) (by decide)
  | bpl | bmi | bvc | bvs | bcc | bcs | bne | beq => exact branchInstr_completes _ _ s
  | undefined => cases h
  -- The count is fixed.
  | _ => exact retire_completes _ (by decide) (by decide)

/-- Settles O8: `Completes` is what it asks of the answer (R61, R105, R285). -/
theorem documentedInstructionsComplete : Obligations.DocumentedInstructionsComplete := by
  unfold Obligations.DocumentedInstructionsComplete
  intro i s h
  exact exec_completes h s

/-! ### What a step can meet -/

/-- The instruction a row of the decode table makes of the operand word `w`, of which a row of two bytes takes the low one. -/
def Entry.instr (w : Addr) : Entry → Instr
  | .f1 i => i
  | .f2 mk => mk (loByte w)
  | .f3 mk => mk w
  | .f3Late mk => mk w

/-- The operand plays no part in whether a row's instruction is well-formed. -/
theorem wellFormed_opcodeEntry_congr (op : Byte) (w w' : Addr) :
    ((opcodeEntry op).instr w).wellFormed = ((opcodeEntry op).instr w').wellFormed := by
  unfold opcodeEntry
  split <;> rfl

theorem wellFormed_opcodeEntry_zero : ∀ op : Byte, ((opcodeEntry op).instr 0).wellFormed = true := by decide

/-- R72, R76: whatever byte is fetched, the instruction is documented or one of the 105 undefined bytes. -/
theorem fetchInstr_wellFormed (s : State) : (fetchInstr s).1.wellFormed = true := by
  have hrow (w : Addr) : ((opcodeEntry (fetchOpcode s).1).instr w).wellFormed = true := by
    rw [wellFormed_opcodeEntry_congr _ w 0, wellFormed_opcodeEntry_zero]
  simp only [fetchInstr]
  split
  next i hentry => simpa [hentry, Entry.instr] using hrow 0
  next mk hentry => simpa [hentry, Entry.instr] using hrow (wordOf 0 (fetchOperand (fetchOpcode s).2).1)
  next mk hentry => simpa [hentry, Entry.instr] using hrow _
  next mk hentry => simpa [hentry, Entry.instr] using hrow _

/-- The answers of an undefined opcode byte (R220). -/
theorem execUndefined_cases (op : Byte) (s : State) :
    (∃ t, execUndefined op s = .next t) ∨ execUndefined op s = .refused (.undefinedOpcode op) ∨
      ∃ name, execUndefined op s = .refused (.undefinedOperation op name) := by
  unfold execUndefined
  split
  · exact .inr (.inl rfl)
  · split
    · exact .inl ⟨_, rfl⟩
    · exact .inl ⟨_, rfl⟩
    · exact .inr (.inr ⟨_, rfl⟩)
    · exact .inr (.inl rfl)

theorem step_atFetch {s : State} (hreset : s.resetLine = false) (hphase : s.phase = .atFetch) :
    step s = exec (fetchInstr s.beginStep).1 (fetchInstr s.beginStep).2 := by
  simp [step, hreset, hphase]

/-! `SafeState` by the answer of the step. -/

theorem SafeState.of_next {s t : State} (h : step s = .next t) : SafeState s := by
  simp [SafeState, h]

theorem SafeState.of_held {s : State} (h : s.resetLine = true) : SafeState s := by
  simp [SafeState, step, h]

/-- An instruction step is safe where the byte it fetched is documented or listed as undefined. -/
theorem SafeState.of_exec {s u : State} {i : Instr} (h : step s = exec i u) (hi : i.wellFormed = true) :
    SafeState s := by
  cases hdefined : i.isUndefined with
  | false =>
    obtain ⟨t, hnext, -⟩ := exec_completes hdefined u
    exact .of_next (h.trans hnext)
  | true =>
    cases i with
    | undefined op =>
      have hlisted : undefinedOpcodes.contains op = true := hi
      obtain ⟨t, hcase⟩ | hcase | ⟨name, hcase⟩ := execUndefined_cases op u
      · exact .of_next (h.trans hcase)
      · rw [SafeState, h.trans hcase]
        exact hlisted
      · rw [SafeState, h.trans hcase]
        exact hlisted
    | _ => cases hdefined

/-- Settles O7: a step is held in reset, an instruction fetched well-formed, or an interrupt check, which always answers
(R220, R230, R276). -/
theorem everyStateIsSafe : Obligations.EveryStateIsSafe := by
  unfold Obligations.EveryStateIsSafe
  intro s
  cases hreset : s.resetLine with
  | true => exact .of_held hreset
  | false =>
    cases hphase : s.phase with
    | atFetch => exact .of_exec (step_atFetch hreset hphase) (fetchInstr_wellFormed s.beginStep)
    | atCheck => exact .of_next (step_atCheck hreset hphase)

/-! ## The reset service -/

/-- The kind of read of the reset vector (R49, R274). -/
def resetReadKind : VectorView → ReadKind
  | .direct => .direct
  | .decrypted => .opcode

theorem readResetVector_eq (q : Addr) (s : State) :
    readResetVector q s = busObserve (resetReadKind s.cfg.resetVectorView) q s := by
  unfold readResetVector
  split <;> simp [resetReadKind, *]

/-- R49: the read of a vector byte is recorded. -/
theorem readResetVector_bus (q : Addr) (s : State) :
    (readResetVector q s).2.bus =
      s.bus ++ [.read (resetReadKind s.cfg.resetVectorView) (s.mask q) (readResetVector q s).1] := by
  rw [readResetVector_eq]
  rfl

/-- The byte read depends on the parameters and the platform alone. -/
theorem readResetVector_fst_congr {s t : State} (hcfg : t.cfg = s.cfg) (hplat : t.plat = s.plat) (q : Addr) :
    (readResetVector q t).1 = (readResetVector q s).1 := by
  simp only [readResetVector_eq, busObserve, State.mask, hcfg, hplat]

/-- The accesses of a reset service (R271): the two bytes of the vector, low byte first. -/
theorem resetService_bus (s : State) :
    (resetService s).bus =
      [.read (resetReadKind s.cfg.resetVectorView) (s.mask 0xFFFC#16) (readResetVector 0xFFFC#16 s).1,
        .read (resetReadKind s.cfg.resetVectorView) (s.mask 0xFFFD#16) (readResetVector 0xFFFD#16 s).1] := by
  have hlow := readResetVector_fst_congr (s := s) (t := { s with bus := [] }) rfl rfl 0xFFFC#16
  have hhigh := readResetVector_fst_congr (s := s) (t := (readResetVector 0xFFFC#16 { s with bus := [] }).2)
    (by simp) (by simp) 0xFFFD#16
  simp [resetService, readResetVector_bus, hlow, hhigh, State.mask]

/-- R271: `PC` is the word that the two reads of the service give. -/
theorem resetService_pc_of_vector (s : State) :
    (resetService s).pc = s.mask (wordOf (readResetVector 0xFFFD#16 s).1 (readResetVector 0xFFFC#16 s).1) := by
  rw [resetService_pc, readResetVector_fst_congr (s := s) (t := { s with bus := [] }) rfl rfl 0xFFFC#16,
    readResetVector_fst_congr (s := s) (by simp) (by simp) 0xFFFD#16]

theorem assertReset_of_clear {s : State} (h : s.resetLine = false) :
    applyEvent .assertReset s = resetService { s with resetLine := true } := by
  simp [applyEvent, State.assertReset, h]

/-- Settles O13: the service reads the two vector bytes by the path of `RESET_VECTOR_VIEW`; its fields are those of
`resetService` (R49, R270, R271, R274). -/
theorem assertResetPerformsService : Obligations.AssertResetPerformsService := by
  unfold Obligations.AssertResetPerformsService
  intro s
  have hheld (hreset : s.resetLine = true) : applyEvent .assertReset s = s := by
    simp [applyEvent, State.assertReset, hreset]
  let u : State := { s with resetLine := true }
  have hdirect (hview : s.cfg.resetVectorView = .direct) (q : Addr) (hplain : IsPlain s q) :
      (readResetVector q u).1 = byteAt s q := readResetVector_direct (s := u) hview hplain
  have hdecrypted (hview : s.cfg.resetVectorView = .decrypted) (q : Addr) (hplain : IsPlain s q) :
      (readResetVector q u).1 = opcodeByteAt s q := readResetVector_decrypted (s := u) hview hplain
  refine ⟨hheld, fun hreset => ?_, rfl⟩
  refine ⟨resetService u, assertReset_of_clear hreset, resetService_resetLine u, resetService_i u,
    resetService_nmiPending u, resetService_phase u, resetService_cyc u, resetService_reported u,
    resetService_plat u, resetService_irqLine u, resetService_nmiLine u, resetService_cfg u, ?_⟩
  exact ⟨resetReadKind s.cfg.resetVectorView, _, _, rfl, resetService_bus u, resetService_pc_of_vector u,
    fun hview => ⟨hdirect hview _, hdirect hview _⟩, fun hview => ⟨hdecrypted hview _, hdecrypted hview _⟩⟩

end Sys2Proof

/-! ## Decoding and encoding -/

namespace Sys2Proof

open Sys2Proof.Machine

/-! ### A row of the decode table, read and written -/

/-- The operand bytes that a row of the decode table takes from the operand word `w` (R71). -/
def Entry.operands (w : Addr) : Entry → List Byte
  | .f1 _ => []
  | .f2 _ => [loByte w]
  | .f3 _ => addrBytes w
  | .f3Late _ => addrBytes w

/-- R75: the encoder gives the instruction of a row the opcode byte of that row. -/
theorem encode_opcodeEntry_instr (op : Byte) (w : Addr) :
    encode ((opcodeEntry op).instr w) = op :: (opcodeEntry op).operands w := by
  unfold opcodeEntry
  -- In each row the table's literal, `op.toNat`, is the literal of the encoder.
  split <;> simp [*, encode, Entry.instr, Entry.operands, ← BitVec.toNat_inj]

theorem wellFormed_opcodeEntry_instr (op : Byte) (w : Addr) : ((opcodeEntry op).instr w).wellFormed = true := by
  rw [wellFormed_opcodeEntry_congr op w 0, wellFormed_opcodeEntry_zero]

/-- What the decoder reads: the opcode byte of a row, the operand bytes of the row's format (R70, R71), then `rest`. -/
theorem decode_eq_ok_iff {bs : List Byte} {i : Instr} {rest : List Byte} :
    decode bs = .ok i rest ↔
      ∃ op w, (opcodeEntry op).instr w = i ∧ op :: (opcodeEntry op).operands w ++ rest = bs := by
  constructor
  · intro h
    cases bs with
    | nil => cases h
    | cons op bs =>
      simp only [decode] at h
      split at h
      next hrow =>
        cases h
        exact ⟨op, 0, by simp [hrow, Entry.instr, Entry.operands]⟩
      next b2 _ hrow =>
        cases h
        exact ⟨op, wordOf 0 b2, by simp [hrow, Entry.instr, Entry.operands]⟩
      next b2 b3 _ hrow =>
        cases h
        exact ⟨op, wordOf b3 b2, by simp [hrow, Entry.instr, Entry.operands, addrBytes]⟩
      next b2 b3 _ hrow =>
        cases h
        exact ⟨op, wordOf b3 b2, by simp [hrow, Entry.instr, Entry.operands, addrBytes]⟩
      next => cases h
  · rintro ⟨op, w, rfl, rfl⟩
    cases hrow : opcodeEntry op <;> simp [decode, hrow, Entry.instr, Entry.operands, addrBytes]

/-! ### Every instruction has its row -/

theorem wellFormed_undefined_iff {op : Byte} : (Instr.undefined op).wellFormed = true ↔ op ∈ undefinedOpcodes :=
  List.contains_iff_mem

/-- R72, R76: the row of a listed byte is the verdict `undefined` on that byte. -/
theorem opcodeEntry_instr_of_mem : ∀ op ∈ undefinedOpcodes, (opcodeEntry op).instr 0 = .undefined op := by
  decide

theorem loByte_surjective : Function.Surjective loByte := fun b2 => ⟨wordOf 0 b2, loByte_wordOf 0 b2⟩

/-- R70, R75: the row at the first byte of an instruction's encoding makes that instruction. -/
theorem exists_opcodeEntry_instr_eq {i : Instr} (h : i.wellFormed = true) :
    ∃ w, (opcodeEntry ((encode i).headD 0)).instr w = i := by
  cases i with
  -- No operand.
  | tax | tay | txa | tya | tsx | txs | inx | iny | dex | dey | aslAcc | lsrAcc | rolAcc | rorAcc | rts | pha
    | pla | php | plp | clc | sec | cli | sei | cld | sed | clv | nop | brk | rti => exact ⟨0, rfl⟩
  -- A 16-bit operand.
  | ldaAbs | ldaAbsy | ldaAbsx | ldxAbs | ldxAbsy | ldyAbs | ldyAbsx | staAbs | staAbsy | staAbsx | stxAbs
    | styAbs | adcAbs | adcAbsy | adcAbsx | sbcAbs | sbcAbsy | sbcAbsx | cmpAbs | cmpAbsy | cmpAbsx | cpxAbs
    | cpyAbs | incAbs | incAbsx | decAbs | decAbsx | andAbs | andAbsy | andAbsx | oraAbs | oraAbsy | oraAbsx
    | eorAbs | eorAbsy | eorAbsx | bitAbs | aslAbs | aslAbsx | lsrAbs | lsrAbsx | rolAbs | rolAbsx | rorAbs
    | rorAbsx | jmpAbs | jmpInd | jsr => exact ⟨_, rfl⟩
  | undefined op => exact ⟨0, opcodeEntry_instr_of_mem op (wellFormed_undefined_iff.mp h)⟩
  -- An operand byte.
  | _ b2 =>
    obtain ⟨w, rfl⟩ := loByte_surjective b2
    exact ⟨w, rfl⟩

/-! ### The statements -/

/-- Settles O1: a row of the table makes the instruction, and the encoder writes the bytes that the decoder reads by
that row (R70, R71, R73, R75). -/
theorem decodeOfEncodeIsIdentity : Obligations.DecodeOfEncodeIsIdentity := by
  unfold Obligations.DecodeOfEncodeIsIdentity
  intro i rest h
  obtain ⟨w, hrow⟩ := exists_opcodeEntry_instr_eq h
  refine decode_eq_ok_iff.mpr ⟨_, w, hrow, ?_⟩
  rw [← encode_opcodeEntry_instr, hrow]

/-- Settles O2: the decoder reads by a row the bytes that the encoder writes for the row's instruction, and every row
makes a well-formed one (R70 to R73). -/
theorem encodeOfDecodeIsIdentity : Obligations.EncodeOfDecodeIsIdentity := by
  unfold Obligations.EncodeOfDecodeIsIdentity
  intro bs i rest h
  obtain ⟨op, w, rfl, rfl⟩ := decode_eq_ok_iff.mp h
  exact ⟨wellFormed_opcodeEntry_instr op w, by rw [encode_opcodeEntry_instr]⟩

/-- R72: no row has more than two operand bytes. -/
theorem exists_decode_eq_ok (op b2 b3 : Byte) : ∃ i rest, decode [op, b2, b3] = .ok i rest := by
  cases hrow : opcodeEntry op <;> simp [decode, hrow]

/-- R72, R76: the readings as undefined are those of the listed bytes, by the round trip in both directions. -/
theorem decode_cons_undefined_iff {op o : Byte} {bs rest : List Byte} :
    decode (op :: bs) = .ok (.undefined o) rest ↔ o = op ∧ rest = bs ∧ op ∈ undefinedOpcodes := by
  constructor
  · intro h
    obtain ⟨hlisted, hbytes⟩ := encodeOfDecodeIsIdentity _ _ _ h
    obtain ⟨rfl, rfl⟩ := List.cons.inj hbytes
    exact ⟨rfl, rfl, wellFormed_undefined_iff.mp hlisted⟩
  · rintro ⟨rfl, rfl, hlisted⟩
    exact decodeOfEncodeIsIdentity (.undefined o) rest (wellFormed_undefined_iff.mpr hlisted)

/-- Settles O3: a listed byte is read as undefined with every byte after it left over (R72, R76). -/
theorem undefinedBytesAreTheListed : Obligations.UndefinedBytesAreTheListed := by
  unfold Obligations.UndefinedBytesAreTheListed
  refine ⟨rfl, fun op b2 b3 => ⟨exists_decode_eq_ok op b2 b3, ?_⟩⟩
  simp [decode_cons_undefined_iff]

/-- Settles O4: the words are literals (R72, R75, R76). -/
theorem familyWordsDecode : Obligations.FamilyWordsDecode := by
  unfold Obligations.FamilyWordsDecode
  decide

end Sys2Proof

/-! ## Addressing modes, branches and the instruction step -/

namespace Sys2Proof

open Sys2Proof.Machine

/-! ### Pages and indexed sums -/

/-- Two addresses lie in different pages when their quotients by 256 differ. -/
theorem hiByte_ne_iff (a b : Addr) : hiByte a ≠ hiByte b ↔ a.toNat / 256 ≠ b.toNat / 256 := by
  rw [← toNat_hiByte, ← toNat_hiByte, BitVec.toNat_ne_iff_ne]

/-- R98, R100: the index is unsigned and the sum wraps at 16 bits. -/
theorem toNat_indexed_ea (base : Addr) (idx : Byte) (s : State) :
    (indexed base idx s).ea.toNat = (base.toNat + idx.toNat) % 65536 := by
  simp [indexed, toNat_zext16]

theorem indexed_crossed_iff_page_ne (base : Addr) (idx : Byte) (s : State) :
    (indexed base idx s).crossed = true ↔ (base.toNat + idx.toNat) % 65536 / 256 ≠ base.toNat / 256 := by
  rw [indexed_crossed_iff, hiByte_ne_iff, toNat_indexed_ea]

/-- R95, R96: a sum of bytes stays in page zero. -/
theorem toNat_zext16_add (b idx : Byte) : (zext16 (b + idx)).toNat = (b.toNat + idx.toNat) % 256 := by
  rw [toNat_zext16, BitVec.toNat_add]

/-- Settles O24: absolute yields its word, and the two indexed modes are `indexed` of their register (R97, R98). -/
theorem absoluteModesAddUnsignedIndex : Obligations.AbsoluteModesAddUnsignedIndex := by
  unfold Obligations.AbsoluteModesAddUnsignedIndex
  intro w s
  exact ⟨rfl, rfl, rfl,
    toNat_indexed_ea w s.x s, rfl, indexed_crossed_iff_page_ne w s.x s,
    toNat_indexed_ea w s.y s, rfl, indexed_crossed_iff_page_ne w s.y s⟩

/-- Settles O25: both modes read the pointer by `zeroPagePointer`, and (zp),Y is `indexed` of what it reads (R99, R100). -/
theorem indirectModesReadPageZeroPointers : Obligations.IndirectModesReadPageZeroPointers := by
  unfold Obligations.IndirectModesReadPageZeroPointers
  intro b2 s
  constructor
  · intro hlow hhigh
    rw [modeIndx, zeroPagePointer_plain hlow hhigh]
    exact ⟨rfl, rfl, rfl⟩
  · intro hlow hhigh
    rw [modeIndy, zeroPagePointer_plain hlow hhigh]
    exact ⟨_, rfl, toNat_indexed_ea _ _ _, indexed_crossed_iff_page_ne _ _ _, rfl⟩

/-- Settles O23: the effective address is a byte, or the sum of two (R94 to R96). -/
theorem zeroPageModesStayInPageZero : Obligations.ZeroPageModesStayInPageZero := by
  unfold Obligations.ZeroPageModesStayInPageZero
  intro b2 s
  exact ⟨toNat_zext16 b2, rfl, rfl, toNat_zext16_add b2 s.x, rfl, rfl, toNat_zext16_add b2 s.y, rfl, rfl⟩

/-! ### Branches -/

/-- R102: the displacement is signed, and the target wraps at 16 bits. -/
theorem toNat_relTarget (b2 : Byte) (s : State) :
    ((relTarget b2 s).toNat : Int) = ((s.pc.toNat : Int) + b2.toInt) % 65536 := by
  have hsext : ((sext16 b2).toNat : Int) = b2.toInt % 65536 := by
    rw [sext16, BitVec.signExtend, BitVec.toNat_ofInt]
    exact Int.toNat_of_nonneg (Int.emod_nonneg _ (by decide))
  rw [relTarget, BitVec.toNat_add, Int.natCast_emod, Int.natCast_add, hsext]
  exact Int.add_emod_emod _ _ _

/-- R104: a branch counts a fourth cycle where the page of the target is not that of the next instruction. -/
theorem relCrossed_iff_page_ne (b2 : Byte) (s : State) :
    relCrossed b2 s = true ↔ (relTarget b2 s).toNat / 256 ≠ s.pc.toNat / 256 := by
  rw [relCrossed, decide_eq_true_iff, hiByte_ne_iff]

/-- R174: each of the eight branches has its opcode byte and is `branchInstr` of its condition. -/
theorem branchConditions_exec {s : State} {b2 : Byte} {ic : Instr × Byte × Bool}
    (h : ic ∈ branchConditions b2 s.p) :
    encode ic.1 = [ic.2.1, b2] ∧ exec ic.1 s = branchInstr ic.2.2 b2 s := by
  unfold branchConditions at h
  fin_cases h <;> exact ⟨rfl, rfl⟩

/-- R174: a branch changes `PC` alone; its count is that of R104. -/
theorem branchInstr_answers (taken : Bool) (b2 : Byte) (s : State) :
    Answers (branchInstr taken b2 s) fun t =>
      (taken = true → t.pc.toNat = (relTarget b2 s).toNat % 2 ^ s.cfg.addrWidth ∧
        t.reported = if (relTarget b2 s).toNat / 256 = s.pc.toNat / 256 then 3 else 4) ∧
      (taken = false → t.pc = s.pc ∧ t.reported = 2) ∧
      t.p = s.p ∧ t.a = s.a ∧ t.x = s.x ∧ t.y = s.y ∧ t.sp = s.sp ∧ t.plat = s.plat ∧ t.bus = s.bus := by
  cases taken with
  | false => exact ⟨_, rfl, nofun, fun _ => ⟨rfl, rfl⟩, rfl, rfl, rfl, rfl, rfl, rfl, rfl⟩
  | true =>
    have hcount : (if relCrossed b2 s then 4 else 3) =
        if (relTarget b2 s).toNat / 256 = s.pc.toNat / 256 then 3 else 4 := by
      simp only [relCrossed_iff_page_ne, ite_not]
    exact ⟨_, rfl, fun _ => ⟨toNat_maskTo _ _, hcount⟩, nofun, rfl, rfl, rfl, rfl, rfl, rfl, rfl⟩

/-- Settles O44: the target is that of `relTarget` (R102, R104, R174 to R182). -/
theorem branchesFollowTheirFlag : Obligations.BranchesFollowTheirFlag := by
  unfold Obligations.BranchesFollowTheirFlag
  intro s b2 ic h
  obtain ⟨hencode, hexec⟩ := branchConditions_exec h
  rw [hexec]
  exact ⟨hencode, _, toNat_relTarget b2 s, branchInstr_answers ic.2.2 b2 s⟩

/-! ### Fetching from plain cells -/

/-- The state in which the first `n` bytes at `PC` have been fetched from plain cells. -/
def Machine.State.fetched (s : State) (n : Nat) : State := { s with bus := fetchAccesses s n, pc := s.nextPc n }

@[simp] theorem fetched_pc (s : State) (n : Nat) : (s.fetched n).pc = s.nextPc n := rfl
@[simp] theorem fetched_mask (s : State) (n : Nat) (q : Addr) : (s.fetched n).mask q = s.mask q := rfl
@[simp] theorem fetched_mem (s : State) (n : Nat) : (s.fetched n).mem = s.mem := rfl

theorem afterFetch_eq (i : Instr) (s : State) : afterFetch i s = s.fetched (fetchedBytes i) := rfl

/-- How many bytes are fetched by a row of the decode table (R71); the last byte of JSR is fetched by its meaning (R172). -/
def Entry.fetched : Entry → Nat
  | .f1 _ => 1
  | .f2 _ => 2
  | .f3 _ => 3
  | .f3Late _ => 2

theorem fetchedBytes_opcodeEntry_instr (op : Byte) (w : Addr) :
    fetchedBytes ((opcodeEntry op).instr w) = (opcodeEntry op).fetched := by
  unfold opcodeEntry
  split <;> rfl

/-- R71: the instruction read from three bytes is that of the row of the first, the other two being its operand word. -/
theorem decode_three_bytes {op b2 b3 : Byte} {i : Instr} {rest : List Byte}
    (h : decode [op, b2, b3] = .ok i rest) : (opcodeEntry op).instr (wordOf b3 b2) = i := by
  cases hrow : opcodeEntry op
  all_goals
    simp only [decode, hrow, Decoded.ok.injEq] at h
    obtain ⟨rfl, -⟩ := h
    simp [Entry.instr]

section

variable {s : State}

theorem fetchOpcode_beginStep_plain (h : IsPlain s s.pc) :
    fetchOpcode s.beginStep = (opcodeByteAt s s.pc, s.fetched 1) :=
  fetchOpcode_plain (s := s.beginStep) h

/-- The second and the third byte add one access each, and `PC` moves past them (R16). -/
theorem fetched_succ {n : Nat} (hn : n = 1 ∨ n = 2) :
    s.fetched (n + 1) =
      { s.fetched n with
        pc := s.nextPc (n + 1)
        bus := (s.fetched n).bus ++ [.read .operand (s.nextPc n) (byteAt s (s.nextPc n))] } := by
  obtain rfl | rfl := hn <;> rfl

/-- R48: an operand fetch reads the second or third byte. -/
theorem fetchOperand_fetched_plain {n : Nat} (hn : n = 1 ∨ n = 2) (h : IsPlain s (s.nextPc n)) :
    fetchOperand (s.fetched n) = (byteAt s (s.nextPc n), s.fetched (n + 1)) := by
  have hmask : s.mask (s.nextPc n) = s.nextPc n := mask_mask s _
  have hpc : (s.fetched n).nextPc 1 = s.nextPc (n + 1) := nextPc_of_pc rfl rfl
  rw [fetchOperand_plain (s := s.fetched n) h, hpc, fetched_succ hn]
  simp [byteAt, hmask]

/-- The byte of JSR that is looked at before its fetch (R172). -/
theorem busObserve_direct_plain {a : Addr} (h : IsPlain s a) : (busObserve .direct a s).1 = byteAt s a :=
  Platform.value_plain (c := s.cfg) (k := .direct) h (by decide)

/-- R105: a fetch from plain cells reads an instruction by the row of its opcode byte. -/
theorem fetchInstr_beginStep_plain (h : IsPlain s s.pc) (h1 : IsPlain s (s.nextPc 1)) (h2 : IsPlain s (s.nextPc 2)) :
    fetchInstr s.beginStep =
      ((opcodeEntry (opcodeByteAt s s.pc)).instr (wordOf (byteAt s (s.nextPc 2)) (byteAt s (s.nextPc 1))),
        s.fetched (opcodeEntry (opcodeByteAt s s.pc)).fetched) := by
  have hsecond := fetchOperand_fetched_plain (.inl rfl) h1
  have hthird := fetchOperand_fetched_plain (.inr rfl) h2
  have hlate : (busObserve .direct (s.nextPc 2) (s.fetched 2)).1 = byteAt s (s.nextPc 2) :=
    busObserve_direct_plain (s := s.fetched 2) h2
  simp only [fetchInstr, fetchOpcode_beginStep_plain h]
  cases hrow : opcodeEntry (opcodeByteAt s s.pc) with
  | f1 i => simp [Entry.instr, Entry.fetched]
  | f2 mk => simp [Entry.instr, Entry.fetched, hsecond]
  | f3 mk => simp [Entry.instr, Entry.fetched, hsecond, hthird]
  | f3Late mk => simp [Entry.instr, Entry.fetched, hsecond, hlate]

end

/-- Settles O5: the fetch and the decoder read the same row of the table (R47, R48, R105, R172). -/
theorem stepRunsDecodedInstruction : Obligations.StepRunsDecodedInstruction := by
  unfold Obligations.StepRunsDecodedInstruction
  intro s i rest hphase hreset h h1 h2 hdecode
  rw [step_atFetch hreset hphase, fetchInstr_beginStep_plain h h1 h2, ← decode_three_bytes hdecode, afterFetch_eq,
    fetchedBytes_opcodeEntry_instr]

end Sys2Proof

/-! ## Loads, stores and transfers -/

namespace Sys2Proof

open Sys2Proof.Machine

/-! ### What a form completes with -/

/-- R19: N is bit 7 of the byte, Z whether it is zero; the other four flags stay. -/
theorem setNZ_setsNZ (v : Byte) (p : Flags) : SetsNZ v p (setNZ v p) :=
  ⟨decide_eq_true_iff, rfl, rfl, rfl, rfl, rfl⟩

section

variable {f : Form} {s : State}

/-- R90, R103: a read-class form applies its operation to the registers that `s` has, whatever the reads of its mode and of
the operand do to the platform. -/
theorem Form.Reads.completes {op : Byte → State → State} (h : f.Reads op) {Q : State → Prop}
    (hQ : ∀ M l n, Q ((op (f.operand s) { s with plat := M, bus := l }).retire n)) : f.Completes s true Q := by
  have hregisters : ∃ M l, (memRead (f.ea s) (f.resolvedState s)).2 = { s with plat := M, bus := l } := by
    rw [h.registers s]
    exact ⟨_, _, rfl⟩
  obtain ⟨M, l, hread⟩ := hregisters
  have hexec : exec f.instr s =
      .next ((op (f.operand s) { s with plat := M, bus := l }).retire (f.cycles + (f.mode s).penalty)) := by
    rw [h.exec s, ← hread]
    rfl
  exact ⟨h.opcode, _, hexec, by simp [penalty_eq], rfl, hQ M l _⟩

/-- R90: a write-class form makes one write of its effective address; it writes no flag and has no page penalty. -/
theorem Form.Writes.completes {value : State → Byte} (h : f.Writes value) (hinv : StateInv (f.resolvedState s)) :
    f.Completes s false fun t =>
      t.p = s.p ∧ t.bus = (f.resolvedState s).bus ++ [.write (s.mask (f.ea s)) (value s)] ∧
        (IsRam (f.resolvedState s) (f.ea s) → byteAt t (f.ea s) = value s) := by
  have hexec : exec f.instr s = .next ((memWrite (f.ea s) (value s) (f.resolvedState s)).retire f.cycles) := h.exec s
  have hflags : (f.resolvedState s).p = s.p := by rw [h.registers s]
  have hbus : (memWrite (f.ea s) (value s) (f.resolvedState s)).bus =
      (f.resolvedState s).bus ++ [.write (s.mask (f.ea s)) (value s)] := by
    rw [memWrite_bus, ← h.mask s]
    rfl
  exact ⟨h.opcode, _, hexec, rfl, rfl, hflags, hbus, memWrite_read_same hinv.memWf⟩

/-! ### The modes of the store forms -/

variable {b : Byte} {w : Addr}

/-- R41: the pointer reads of (zp,X) and (zp),Y keep the invariant; the other modes read nothing. -/
theorem resolvedState_inv_of_mem_staForms (hinv : StateInv s) (h : f ∈ staForms b w) :
    StateInv (f.resolvedState s) := by
  simp only [staForms, List.mem_cons, List.not_mem_nil, or_false] at h
  obtain rfl | rfl | rfl | rfl | rfl | rfl | rfl := h
  · exact (modeIndx_frame (w := {}) b s).inv hinv
  · exact hinv
  · exact hinv
  · exact (modeIndy_frame (w := {}) b s).inv hinv
  all_goals exact hinv

/-- The modes of STX read no pointer. -/
theorem resolvedState_of_mem_stxForms (h : f ∈ stxForms b w) : f.resolvedState s = s := by
  unfold stxForms at h
  fin_cases h <;> rfl

/-- Nor do those of STY. -/
theorem resolvedState_of_mem_styForms (h : f ∈ styForms b w) : f.resolvedState s = s := by
  unfold styForms at h
  fin_cases h <;> rfl

end

/-! ### The statements -/

/-- Settles O27: each memory form is of the read class with the operation of its load (R110 to R112). -/
theorem loadsMoveOperandAndSetNZ : Obligations.LoadsMoveOperandAndSetNZ := by
  unfold Obligations.LoadsMoveOperandAndSetNZ
  intro s m b w
  refine ⟨⟨_, rfl, rfl, setNZ_setsNZ m s.p, rfl, rfl⟩, ⟨_, rfl, rfl, setNZ_setsNZ m s.p, rfl, rfl⟩,
    ⟨_, rfl, rfl, setNZ_setsNZ m s.p, rfl, rfl⟩, rfl, rfl, rfl, fun f hf => ?lda, fun f hf => ?ldx, fun f hf => ?ldy⟩
  case lda => exact (reads_of_mem_ldaForms hf).completes fun _ _ _ => ⟨rfl, setNZ_setsNZ (f.operand s) s.p⟩
  case ldx => exact (reads_of_mem_ldxForms hf).completes fun _ _ _ => ⟨rfl, setNZ_setsNZ (f.operand s) s.p⟩
  case ldy => exact (reads_of_mem_ldyForms hf).completes fun _ _ _ => ⟨rfl, setNZ_setsNZ (f.operand s) s.p⟩

/-- Settles O28: each form is of the write class with its register as the value (R113 to R115), and the reads of its mode
keep the invariant. -/
theorem storesWriteTheirRegister : Obligations.StoresWriteTheirRegister := by
  unfold Obligations.StoresWriteTheirRegister
  intro s b w hinv
  refine ⟨fun f hf => ?sta, fun f hf => ?stx, fun f hf => ?sty⟩
  case sta => exact (writes_of_mem_staForms hf).completes (resolvedState_inv_of_mem_staForms hinv hf)
  case stx => exact (writes_of_mem_stxForms hf).completes ((resolvedState_of_mem_stxForms hf).symm ▸ hinv)
  case sty => exact (writes_of_mem_styForms hf).completes ((resolvedState_of_mem_styForms hf).symm ▸ hinv)

/-- Settles O29: five transfers are loads of a register, TXS alone sets `SP` and nothing else (R116 to R121). -/
theorem transfersMoveRegisters : Obligations.TransfersMoveRegisters := by
  unfold Obligations.TransfersMoveRegisters
  intro s
  have htax := setNZ_setsNZ s.a s.p
  have htxa := setNZ_setsNZ s.x s.p
  have htya := setNZ_setsNZ s.y s.p
  have htsx := setNZ_setsNZ s.sp s.p
  exact ⟨⟨_, rfl, rfl, htax, rfl, rfl, rfl⟩, ⟨_, rfl, rfl, htax, rfl, rfl, rfl⟩, ⟨_, rfl, rfl, htxa, rfl, rfl, rfl⟩,
    ⟨_, rfl, rfl, htya, rfl, rfl, rfl⟩, ⟨_, rfl, rfl, htsx, rfl, rfl, rfl⟩, ⟨_, rfl, rfl, rfl, rfl, rfl, rfl⟩,
    rfl, rfl, rfl, rfl, rfl, rfl⟩

end Sys2Proof

/-! ## Arithmetic -/

namespace Sys2Proof

open Sys2Proof.Machine

/-! ### Bytes as numbers -/

theorem bit_seven_iff (v : Byte) : bit v 7 = true ↔ 128 ≤ v.toNat := by
  rw [bit, ← BitVec.msb_eq_getLsbD_last (x := v), BitVec.msb_eq_decide, decide_eq_true_iff]

/-- The overflow bit of R142 and R144: both operands have the same bit 7 and the result has the other. -/
theorem overflowBit_iff (a m r : Byte) :
    bit ((a ^^^ r) &&& (m ^^^ r)) 7 = true ↔
      (128 ≤ a.toNat ↔ 128 ≤ m.toNat) ∧ ¬(128 ≤ a.toNat ↔ 128 ≤ r.toNat) := by
  have hbits : bit ((a ^^^ r) &&& (m ^^^ r)) 7 = ((bit a 7 ^^ bit r 7) && (bit m 7 ^^ bit r 7)) := by simp [bit]
  rw [hbits, ← bit_seven_iff, ← bit_seven_iff, ← bit_seven_iff]
  generalize bit a 7 = signA, bit m 7 = signM, bit r 7 = signR
  revert signA signM signR
  decide

theorem toInt_byte (v : Byte) : v.toInt = if 128 ≤ v.toNat then (v.toNat : Int) - 256 else v.toNat := by
  rw [BitVec.toInt_eq_toNat_cond]
  omega

/-- The one's complement of R143. -/
theorem toNat_xor_ones (m : Byte) : (m ^^^ 0xFF#8).toNat = 255 - m.toNat := by
  rw [show (0xFF#8 : Byte) = BitVec.allOnes 8 from rfl, BitVec.xor_allOnes, BitVec.toNat_not]

/-- The high digit of R144 and R145 in its place. -/
theorem toNat_highDigit (v : Byte) : (v &&& 0xF0#8).toNat = 16 * (v.toNat / 16) := by
  revert v
  decide

/-! ### Which operation ADC and SBC apply -/

/-- R130: without D or without decimal mode ADC adds in binary. -/
theorem opAdc_binary {s : State} (h : s.p.d = false ∨ s.cfg.decimalEnabled = false) (m : Byte) :
    opAdc m s = s.putA (addBinary s.a m s.p) := by
  have hmode : (s.p.d && s.cfg.decimalEnabled) = false := Bool.and_eq_false_iff.mpr h
  rw [opAdc, hmode, if_neg Bool.false_ne_true]

/-- R130: with D in a core that has decimal mode ADC adds in decimal. -/
theorem opAdc_decimal {s : State} (hd : s.p.d = true) (he : s.cfg.decimalEnabled = true) (m : Byte) :
    opAdc m s = s.putA (addDecimal s.a m s.p) := by
  rw [opAdc, hd, he]
  rfl

/-- R131: without D or without decimal mode SBC subtracts in binary. -/
theorem opSbc_binary {s : State} (h : s.p.d = false ∨ s.cfg.decimalEnabled = false) (m : Byte) :
    opSbc m s = s.putA (subBinary s.a m s.p) := by
  have hmode : (s.p.d && s.cfg.decimalEnabled) = false := Bool.and_eq_false_iff.mpr h
  rw [opSbc, hmode, if_neg Bool.false_ne_true]

/-- R131: with D in a core that has decimal mode SBC subtracts in decimal. -/
theorem opSbc_decimal {s : State} (hd : s.p.d = true) (he : s.cfg.decimalEnabled = true) (m : Byte) :
    opSbc m s = s.putA (subDecimal s.a m s.p) := by
  rw [opSbc, hd, he]
  rfl

/-! ### Binary sum and difference -/

/-- R142: the signed sum leaves the range of a byte exactly when both operands have the sign that the result has not. -/
theorem addBinary_holdsBinarySum {a m : Byte} {p : Flags} {t : State} (ha : t.a = (addBinary a m p).1)
    (hp : t.p = (addBinary a m p).2) : HoldsBinarySum a m p t := by
  have hsum : t.a.toNat = (a.toNat + m.toNat + p.c.toNat) % 256 := by rw [ha]; exact BitVec.toNat_ofNat _ 8
  have hoverflow : t.p.v = bit ((a ^^^ t.a) &&& (m ^^^ t.a)) 7 := by rw [hp, ha]; rfl
  refine ⟨hsum, ?carry, ?overflow, ?zero, ?negative, ?decimal, ?interrupt⟩
  case carry => rw [hp]; exact decide_eq_true_iff
  case overflow =>
    have hc := p.c.toNat_le
    rw [hoverflow, overflowBit_iff, toInt_byte a, toInt_byte m, hsum]
    omega
  case zero => rw [hp, ha]; exact decide_eq_true_iff
  case negative => rw [hp, ha]; rfl
  case decimal => rw [hp]; rfl
  case interrupt => rw [hp]; rfl

/-- R143: subtracting is adding the one's complement. -/
theorem HoldsBinarySum.difference {a m : Byte} {p : Flags} {t : State} (h : HoldsBinarySum a (m ^^^ 0xFF#8) p t) :
    HoldsBinaryDifference a m p t := by
  obtain ⟨hsum, hcarry, hoverflow, hrest⟩ := h
  have hm := m.isLt
  have hcomplement := toNat_xor_ones m
  rw [toInt_byte (m ^^^ 0xFF#8)] at hoverflow
  rw [hcomplement] at hsum hcarry hoverflow
  refine ⟨?_, ?_, ?_, hrest⟩
  · omega
  · rw [hcarry]; omega
  · rw [hoverflow, toInt_byte m]; omega

theorem opAdc_holdsBinarySum {s : State} (h : s.p.d = false ∨ s.cfg.decimalEnabled = false) (m : Byte) (n : Nat) :
    HoldsBinarySum s.a m s.p ((opAdc m s).retire n) := by
  rw [opAdc_binary h]
  exact addBinary_holdsBinarySum rfl rfl

theorem opSbc_holdsBinaryDifference {s : State} (h : s.p.d = false ∨ s.cfg.decimalEnabled = false) (m : Byte) (n : Nat) :
    HoldsBinaryDifference s.a m s.p ((opSbc m s).retire n) := by
  rw [opSbc_binary h]
  exact HoldsBinarySum.difference (addBinary_holdsBinarySum rfl rfl)

/-! ### Decimal sum and difference -/

/-- R144 by its sum before the high correction, from which N and V come; C and the byte come from the sum after it. -/
theorem addDecimal_eq (a m : Byte) (p : Flags) {u : Nat} (hu : u = beforeHighCorrection a m p.c) :
    addDecimal a m p =
      (BitVec.ofNat 8 (if 160 ≤ u then u + 96 else u),
        { p with
          z := decide (BitVec.ofNat 8 (a.toNat + m.toNat + p.c.toNat) = 0#8)
          n := bit (BitVec.ofNat 8 u) 7
          v := bit ((a ^^^ BitVec.ofNat 8 u) &&& (m ^^^ BitVec.ofNat 8 u)) 7
          c := decide (160 ≤ u) }) := by
  have hsum : 16 * (a.toNat / 16) + 16 * (m.toNat / 16) = 16 * (a.toNat / 16 + m.toNat / 16) := by omega
  have hcarry (k : Nat) : (256 ≤ if 160 ≤ k then k + 96 else k) ↔ 160 ≤ k := by split <;> omega
  simp only [addDecimal, toNat_highDigit, hsum, ge_iff_le, hcarry, hu, beforeHighCorrection]

/-- A byte with the hundreds of a number written as 256s and its tens as 16s holds the number mod 100 in decimal digits. -/
theorem validBcd_of_digits {r : Byte} {hundreds tens ones : Int}
    (hr : (r.toNat : Int) = (256 * hundreds + 16 * tens + ones) % 256) (htens : 0 ≤ tens ∧ tens ≤ 9)
    (hones : 0 ≤ ones ∧ ones ≤ 9) :
    ValidBcd r ∧ (bcdValue r : Int) = (100 * hundreds + 10 * tens + ones) % 100 := by
  have hdigits : (r.toNat : Int) = 16 * tens + ones := by omega
  have hvalue : (100 * hundreds + 10 * tens + ones) % 100 = 10 * tens + ones := by omega
  rw [hvalue]
  simp only [ValidBcd, bcdValue]
  omega

/-- R144: the corrected sum of two decimal digits and a carry has the tens of the sum as 16s. -/
theorem correctedLowSum {x : Nat} (hx : x ≤ 19) :
    (if 10 ≤ x then (x + 6) % 16 + 16 else x) = 16 * (x / 10) + x % 10 := by
  split <;> omega

/-- R144: the high correction writes the tens of a sum of high digits as 256s. -/
theorem correctedHighSum {high low : Nat} (hhigh : high ≤ 19) (hlow : low ≤ 9) :
    (if 160 ≤ 16 * high + low then 16 * high + low + 96 else 16 * high + low) =
      256 * (high / 10) + 16 * (high % 10) + low := by
  split <;> omega

/-- On decimal digits the corrections of R144 carry ten from one digit to the next. -/
theorem beforeHighCorrection_validBcd {a m r : Byte} {c : Bool} {u : Nat} (hu : u = beforeHighCorrection a m c)
    (hr : r.toNat = (if 160 ≤ u then u + 96 else u) % 256) (ha : ValidBcd a) (hm : ValidBcd m) :
    ValidBcd r ∧ bcdValue r = (bcdValue a + bcdValue m + c.toNat) % 100 ∧
      (160 ≤ u ↔ 100 ≤ bcdValue a + bcdValue m + c.toNat) := by
  obtain ⟨haHigh, haLow⟩ := ha
  obtain ⟨hmHigh, hmLow⟩ := hm
  have hc := c.toNat_le
  obtain ⟨low, hlow⟩ : ∃ low, low = a.toNat % 16 + m.toNat % 16 + c.toNat := ⟨_, rfl⟩
  obtain ⟨high, hhigh⟩ : ∃ high, high = a.toNat / 16 + m.toNat / 16 + low / 10 := ⟨_, rfl⟩
  have hvalue : bcdValue a + bcdValue m + c.toNat = 100 * (high / 10) + 10 * (high % 10) + low % 10 := by
    simp only [bcdValue]
    omega
  have hdigits : u = 16 * high + low % 10 := by
    rw [hu, beforeHighCorrection, ← hlow, correctedLowSum (by omega)]
    omega
  rw [hdigits, correctedHighSum (by omega) (by omega)] at hr
  obtain ⟨hvalid, hresult⟩ := validBcd_of_digits (r := r) (hundreds := (high / 10 : Nat)) (tens := (high % 10 : Nat))
    (ones := (low % 10 : Nat)) (by omega) (by omega) (by omega)
  rw [hvalue]
  exact ⟨hvalid, by omega, by omega⟩

theorem opAdc_holdsDecimalSum {s : State} (hd : s.p.d = true) (he : s.cfg.decimalEnabled = true) (m : Byte) (n : Nat) :
    HoldsDecimalSum s.a m s.p ((opAdc m s).retire n) := by
  obtain ⟨u, hu⟩ : ∃ u, u = beforeHighCorrection s.a m s.p.c := ⟨_, rfl⟩
  rw [opAdc_decimal hd he, addDecimal_eq s.a m s.p hu]
  have hbyte (k : Nat) : (BitVec.ofNat 8 k).toNat = k % 256 := BitVec.toNat_ofNat k 8
  refine ⟨⟨u, hu, ?negative, ?overflow, decide_eq_true_iff, hbyte _⟩, ?zero, rfl, rfl, fun ha hm => ?valid⟩
  case negative => exact (bit_seven_iff _).trans (by rw [hbyte])
  case overflow => exact (overflowBit_iff _ _ _).trans (by rw [hbyte])
  case zero => exact decide_eq_true_iff.trans (by rw [← BitVec.toNat_inj, hbyte]; rfl)
  case valid =>
    obtain ⟨hvalid, hvalue, hcarry⟩ := beforeHighCorrection_validBcd hu (hbyte _) ha hm
    exact ⟨hvalid, hvalue, decide_eq_true_iff.trans hcarry⟩

/-- R145: the result with both digits corrected; the flags are the binary ones. -/
theorem subDecimal_eq (a m : Byte) (p : Flags) {d : Int} (hd : d = beforeHighBorrow a m p.c) :
    subDecimal a m p = (BitVec.ofInt 8 (if d < 0 then d - 96 else d), (subBinary a m p).2) := by
  have hlow : ((a.toNat % 16 : Nat) : Int) - (m.toNat % 16 : Nat) + p.c.toNat - 1 =
      (a.toNat % 16 : Nat) - (m.toNat % 16 : Nat) - (1 - p.c.toNat) := by omega
  have hhigh : ((16 * (a.toNat / 16) : Nat) : Int) - (16 * (m.toNat / 16) : Nat) =
      16 * ((a.toNat / 16 : Nat) - (m.toNat / 16 : Nat)) := by omega
  simp only [subDecimal, toNat_highDigit, hlow, hhigh, hd, beforeHighBorrow]

/-- R145: the corrected difference of two decimal digits and a borrow has the tens of the difference as 16s. -/
theorem correctedLowDifference {x : Int} (hx : -10 ≤ x ∧ x ≤ 9) :
    (if x < 0 then (x - 6) % 16 - 16 else x) = 16 * (x / 10) + x % 10 := by
  split <;> omega

/-- R145: the high correction writes the tens of a difference of high digits as 256s. -/
theorem correctedHighDifference {high low : Int} (hhigh : -10 ≤ high ∧ high ≤ 9) (hlow : 0 ≤ low ∧ low ≤ 9) :
    (if 16 * high + low < 0 then 16 * high + low - 96 else 16 * high + low) =
      256 * (high / 10) + 16 * (high % 10) + low := by
  split <;> omega

/-- On decimal digits the corrections of R145 borrow ten from the next digit. -/
theorem beforeHighBorrow_validBcd {a m r : Byte} {c : Bool} {d : Int} (hd : d = beforeHighBorrow a m c)
    (hr : (r.toNat : Int) = (if d < 0 then d - 96 else d) % 256) (ha : ValidBcd a) (hm : ValidBcd m) :
    ValidBcd r ∧ (bcdValue r : Int) = ((bcdValue a : Int) - bcdValue m - (1 - c.toNat)) % 100 := by
  obtain ⟨haHigh, haLow⟩ := ha
  obtain ⟨hmHigh, hmLow⟩ := hm
  have hc := c.toNat_le
  obtain ⟨low, hlow⟩ : ∃ low : Int, low = (a.toNat % 16 : Nat) - (m.toNat % 16 : Nat) - (1 - c.toNat) := ⟨_, rfl⟩
  obtain ⟨high, hhigh⟩ : ∃ high : Int, high = (a.toNat / 16 : Nat) - (m.toNat / 16 : Nat) + low / 10 := ⟨_, rfl⟩
  have hvalue : (bcdValue a : Int) - bcdValue m - (1 - c.toNat) =
      100 * (high / 10) + 10 * (high % 10) + low % 10 := by
    simp only [bcdValue]
    omega
  have hdigits : d = 16 * high + low % 10 := by
    rw [hd, beforeHighBorrow, ← hlow, correctedLowDifference (by omega)]
    omega
  rw [hdigits, correctedHighDifference (by omega) (by omega)] at hr
  rw [hvalue]
  exact validBcd_of_digits hr (by omega) (by omega)

theorem opSbc_holdsDecimalDifference {s : State} (hd : s.p.d = true) (he : s.cfg.decimalEnabled = true) (m : Byte)
    (n : Nat) : HoldsDecimalDifference s.a m s.p ((opSbc m s).retire n) := by
  obtain ⟨d, hdiff⟩ : ∃ d, d = beforeHighBorrow s.a m s.p.c := ⟨_, rfl⟩
  rw [opSbc_decimal hd he, subDecimal_eq s.a m s.p hdiff]
  have hbyte (k : Int) : ((BitVec.ofInt 8 k).toNat : Int) = k % 256 := by
    rw [BitVec.toNat_ofInt]
    omega
  exact ⟨rfl, ⟨d, hdiff, hbyte _⟩, beforeHighBorrow_validBcd hdiff (hbyte _)⟩

/-! ### Comparison, increment and decrement -/

/-- R132: the difference is zero exactly when the bytes are equal. -/
theorem compareFlags_holdsComparison (r m : Byte) (p : Flags) : HoldsComparison r m p (compareFlags r m p) :=
  ⟨decide_eq_true_iff, decide_eq_true_iff.trans sub_eq_zero, rfl, rfl, rfl, rfl⟩

theorem byte_toNat_add_one (v : Byte) : (v + 1#8).toNat = (v.toNat + 1) % 256 := BitVec.toNat_add v 1#8

theorem byte_toNat_sub_one (v : Byte) : (v - 1#8).toNat = (v.toNat + 255) % 256 := by
  rw [BitVec.toNat_sub, Nat.add_comm]
  rfl

section

variable {f : Form} {s : State}

theorem Form.Completes.mono {penalized : Bool} {Q R : State → Prop} (h : f.Completes s penalized Q)
    (hQR : ∀ t, Q t → R t) : f.Completes s penalized R := by
  obtain ⟨hopcode, t, hexec, hreported, hphase, hQ⟩ := h
  exact ⟨hopcode, t, hexec, hreported, hphase, hQR t hQ⟩

/-- R41: a byte stored at a RAM cell just read is in the program space. -/
theorem byteAt_memWrite_memRead {addr : Addr} {v : Byte} (hinv : StateInv s) (hram : IsRam s addr) :
    byteAt (memWrite addr v (memRead addr s).2) addr = v := by
  have hplain : IsPlain s addr := by rw [IsPlain, hram]; decide
  rw [memRead_plain hplain]
  exact memWrite_read_same hinv.memWf hram

/-- R90: a read-modify-write form makes one read and then one write of its effective address and has no page penalty. -/
theorem Form.Modifies.completes {op : Byte → Flags → Byte × Flags} (h : f.Modifies op)
    (hinv : StateInv (f.resolvedState s)) :
    f.Completes s false fun t =>
      t.p = (op (f.operand s) s.p).2 ∧
      t.bus = (f.resolvedState s).bus ++
        [.read .data (s.mask (f.ea s)) (f.operand s), .write (s.mask (f.ea s)) (op (f.operand s) s.p).1] ∧
      (IsRam (f.resolvedState s) (f.ea s) → byteAt t (f.ea s) = (op (f.operand s) s.p).1) := by
  have hflags : (f.resolvedState s).p = s.p := by rw [h.registers s]
  obtain ⟨t, hexec, hbus⟩ := h.answers_bus s
  have ht := hexec.symm.trans ((h.exec s).trans (rmwInstr_eq _ _ _))
  rw [hflags] at hbus
  cases ht
  refine ⟨h.opcode, _, hexec, rfl, rfl, ?_, hbus, fun hram => ?_⟩
  · rw [← hflags]; rfl
  · rw [← hflags]; exact byteAt_memWrite_memRead hinv hram

/-- The modes of the read-modify-write forms read no pointer (R75). -/
theorem resolvedState_of_mem_rmwForms {b : Byte} {w : Addr} (h : f ∈ rmwForms b w) : f.resolvedState s = s := by
  simp only [rmwForms, incForms, decForms, aslForms, lsrForms, rolForms, rorForms] at h
  fin_cases h <;> rfl

theorem incForms_subset_rmwForms (b : Byte) (w : Addr) : incForms b w ⊆ rmwForms b w := by
  intro f hf
  simp [rmwForms, hf]

theorem decForms_subset_rmwForms (b : Byte) (w : Addr) : decForms b w ⊆ rmwForms b w := by
  intro f hf
  simp [rmwForms, hf]

/-- R135, R136: a form whose operation on the byte is a new byte with its N and Z. -/
theorem Form.Modifies.completes_setNZ {step : Byte → Byte} (h : f.Modifies fun m p => (step m, setNZ (step m) p))
    (hinv : StateInv (f.resolvedState s)) {Q : Byte → Prop} (hQ : Q (step (f.operand s))) :
    f.Completes s false fun t =>
      ∃ r : Byte, Q r ∧ SetsNZ r s.p t.p ∧
        t.bus = (f.resolvedState s).bus ++ [.read .data (s.mask (f.ea s)) (f.operand s), .write (s.mask (f.ea s)) r] ∧
        (IsRam (f.resolvedState s) (f.ea s) → byteAt t (f.ea s) = r) :=
  (h.completes hinv).mono fun _ ⟨hflags, hbus, hram⟩ => ⟨_, hQ, hflags ▸ setNZ_setsNZ _ s.p, hbus, hram⟩

end

/-! ### The statements -/

/-- Settles O30: without decimal mode every form adds in binary (R142). -/
theorem adcAddsInBinary : Obligations.AdcAddsInBinary := by
  unfold Obligations.AdcAddsInBinary
  intro s m b w hbinary
  refine ⟨⟨_, rfl, opAdc_holdsBinarySum hbinary m 2, rfl, rfl⟩, rfl, fun f hf => ?_⟩
  exact (reads_of_mem_adcForms hf).completes fun M l n =>
    opAdc_holdsBinarySum (s := { s with plat := M, bus := l }) hbinary (f.operand s) n

/-- Settles O31: without decimal mode every form subtracts in binary, by adding the one's complement (R143). -/
theorem sbcSubtractsInBinary : Obligations.SbcSubtractsInBinary := by
  unfold Obligations.SbcSubtractsInBinary
  intro s m b w hbinary
  refine ⟨⟨_, rfl, opSbc_holdsBinaryDifference hbinary m 2, rfl, rfl⟩, rfl, fun f hf => ?_⟩
  exact (reads_of_mem_sbcForms hf).completes fun M l n =>
    opSbc_holdsBinaryDifference (s := { s with plat := M, bus := l }) hbinary (f.operand s) n

/-- Settles O32: in decimal mode every form follows R144, which is BCD addition on decimal digits. -/
theorem adcAddsInDecimal : Obligations.AdcAddsInDecimal := by
  unfold Obligations.AdcAddsInDecimal
  intro s m b w hd he
  refine ⟨⟨_, rfl, opAdc_holdsDecimalSum hd he m 2, rfl, rfl⟩, fun f hf => ?_⟩
  exact (reads_of_mem_adcForms hf).completes fun M l n =>
    opAdc_holdsDecimalSum (s := { s with plat := M, bus := l }) hd he (f.operand s) n

/-- Settles O33: in decimal mode every form follows R145, which is BCD subtraction on decimal digits. -/
theorem sbcSubtractsInDecimal : Obligations.SbcSubtractsInDecimal := by
  unfold Obligations.SbcSubtractsInDecimal
  intro s m b w hd he
  refine ⟨⟨_, rfl, opSbc_holdsDecimalDifference hd he m 2, rfl, rfl⟩, fun f hf => ?_⟩
  exact (reads_of_mem_sbcForms hf).completes fun M l n =>
    opSbc_holdsDecimalDifference (s := { s with plat := M, bus := l }) hd he (f.operand s) n

/-- Settles O34: each form replaces the flags by those of the comparison with its register (R132 to R134). -/
theorem comparesSetFlagsOnly : Obligations.ComparesSetFlagsOnly := by
  unfold Obligations.ComparesSetFlagsOnly
  intro s m b w
  refine ⟨⟨_, rfl, compareFlags_holdsComparison s.a m s.p, rfl, rfl, rfl⟩,
    ⟨_, rfl, compareFlags_holdsComparison s.x m s.p, rfl, rfl, rfl⟩,
    ⟨_, rfl, compareFlags_holdsComparison s.y m s.p, rfl, rfl, rfl⟩, rfl, rfl, rfl,
    fun f hf => ?cmp, fun f hf => ?cpx, fun f hf => ?cpy⟩
  case cmp => exact (reads_of_mem_cmpForms hf).completes fun _ _ _ => ⟨compareFlags_holdsComparison _ _ s.p, rfl⟩
  case cpx => exact (reads_of_mem_cpxForms hf).completes fun _ _ _ => ⟨compareFlags_holdsComparison _ _ s.p, rfl⟩
  case cpy => exact (reads_of_mem_cpyForms hf).completes fun _ _ _ => ⟨compareFlags_holdsComparison _ _ s.p, rfl⟩

/-- Settles O35: INC and DEC are of the read-modify-write class (R90) with a step by one (R135, R136). -/
theorem incDecChangeMemoryByOne : Obligations.IncDecChangeMemoryByOne := by
  unfold Obligations.IncDecChangeMemoryByOne
  intro s b w hinv
  have hresolved {f : Form} (hf : f ∈ rmwForms b w) : StateInv (f.resolvedState s) :=
    (resolvedState_of_mem_rmwForms hf).symm ▸ hinv
  refine ⟨fun f hf => ?inc, fun f hf => ?dec⟩
  case inc =>
    exact (modifies_of_mem_incForms hf).completes_setNZ (hresolved (incForms_subset_rmwForms b w hf)) (byte_toNat_add_one _)
  case dec =>
    exact (modifies_of_mem_decForms hf).completes_setNZ (hresolved (decForms_subset_rmwForms b w hf)) (byte_toNat_sub_one _)

/-- Settles O36: each is a load of the register with its step by one (R137 to R140). -/
theorem indexIncDecWrap : Obligations.IndexIncDecWrap := by
  unfold Obligations.IndexIncDecWrap
  intro s
  exact ⟨⟨_, rfl, byte_toNat_add_one s.x, setNZ_setsNZ _ s.p, rfl, rfl⟩,
    ⟨_, rfl, byte_toNat_add_one s.y, setNZ_setsNZ _ s.p, rfl, rfl⟩,
    ⟨_, rfl, byte_toNat_sub_one s.x, setNZ_setsNZ _ s.p, rfl, rfl⟩,
    ⟨_, rfl, byte_toNat_sub_one s.y, setNZ_setsNZ _ s.p, rfl, rfl⟩, rfl, rfl, rfl, rfl⟩

end Sys2Proof

/-! ## Logic and shifts -/

namespace Sys2Proof

open Sys2Proof.Machine

/-! ### Bit operations on bytes -/

theorem bit_and (a m : Byte) (k : Nat) : bit (a &&& m) k = (bit a k && bit m k) := BitVec.getLsbD_and

theorem bit_or (a m : Byte) (k : Nat) : bit (a ||| m) k = (bit a k || bit m k) := BitVec.getLsbD_or

theorem bit_xor (a m : Byte) (k : Nat) : bit (a ^^^ m) k = (bit a k ^^ bit m k) := BitVec.getLsbD_xor

/-- R153: the bytes that BIT finds without a common bit. -/
theorem and_eq_zero_iff_no_common_bit (a m : Byte) :
    a &&& m = 0#8 ↔ ∀ k, ¬(bit a k = true ∧ bit m k = true) := by
  have hcommon (k : Nat) : bit (a &&& m) k = false ↔ ¬(bit a k = true ∧ bit m k = true) := by
    rw [bit_and, Bool.and_eq_false_iff]
    cases bit a k <;> simp
  constructor
  · intro hzero k
    rw [← hcommon, hzero]
    exact BitVec.getLsbD_zero
  · intro hnone
    refine BitVec.eq_of_getLsbD_eq fun k _ => ?_
    rw [BitVec.getLsbD_zero]
    exact (hcommon k).mpr (hnone k)

/-! ### Shifts and rotates of a byte -/

/-- R154 to R157: N and Z from the result, C replaced. -/
theorem setNZ_setsNZC (v : Byte) (c : Bool) (p : Flags) : SetsNZC v c p (setNZ v { p with c := c }) :=
  ⟨decide_eq_true_iff, rfl, rfl, rfl, rfl, rfl⟩

theorem toNat_shiftLeft_one (m : Byte) : (m <<< 1).toNat = 2 * m.toNat % 256 := by
  rw [BitVec.toNat_shiftLeft, Nat.shiftLeft_eq, Nat.mul_comm]

theorem toNat_shiftRight_one (m : Byte) : (m >>> 1).toNat = m.toNat / 2 := by
  rw [BitVec.toNat_ushiftRight, Nat.shiftRight_eq_div_pow]

/-- R155, R157: the bit that a shift to the right leaves open. -/
theorem bit_seven_shiftRight_one (m : Byte) : bit (m >>> 1) 7 = false := by
  rw [bit, BitVec.getLsbD_ushiftRight]
  exact BitVec.getLsbD_of_ge m 8 (le_refl 8)

theorem toNat_carryByte (c : Bool) : (BitVec.ofNat 8 c.toNat).toNat = c.toNat := by
  cases c <;> rfl

theorem toNat_carryByte_shiftLeft_seven (c : Bool) : (BitVec.ofNat 8 c.toNat <<< 7).toNat = 128 * c.toNat := by
  cases c <;> rfl

/-- R156: C enters the bit that the shift to the left leaves open. -/
theorem rotateLeft_toNat (m : Byte) (p : Flags) :
    (rotateLeft m p).1.toNat = (2 * m.toNat + p.c.toNat) % 256 := by
  have hc := p.c.toNat_le
  have heven : 2 * m.toNat % 256 = (m.toNat % 128) <<< 1 := by
    rw [Nat.shiftLeft_eq]
    omega
  rw [rotateLeft, BitVec.toNat_or, toNat_shiftLeft_one, toNat_carryByte, heven,
    ← Nat.shiftLeft_add_eq_or_of_lt (by omega), ← heven]
  omega

/-- R157: C enters bit 7. -/
theorem rotateRight_toNat (m : Byte) (p : Flags) :
    (rotateRight m p).1.toNat = m.toNat / 2 + 128 * p.c.toNat := by
  have hm := m.isLt
  have hhigh : 128 * p.c.toNat = p.c.toNat <<< 7 := by rw [Nat.shiftLeft_eq, Nat.mul_comm]
  rw [rotateRight, BitVec.toNat_or, toNat_shiftRight_one, toNat_carryByte_shiftLeft_seven, hhigh, Nat.or_comm,
    ← Nat.shiftLeft_add_eq_or_of_lt (by omega), Nat.add_comm]

theorem bit_seven_rotateRight (m : Byte) (p : Flags) : bit (rotateRight m p).1 7 = p.c := by
  rw [rotateRight, bit_or, bit_seven_shiftRight_one, Bool.false_or]
  cases p.c <;> rfl

theorem shiftLeft_isShiftLeft (m : Byte) (p : Flags) : IsShiftLeft m p (shiftLeft m p).1 (shiftLeft m p).2 :=
  ⟨toNat_shiftLeft_one m, setNZ_setsNZC _ _ p⟩

theorem shiftRight_isShiftRight (m : Byte) (p : Flags) : IsShiftRight m p (shiftRight m p).1 (shiftRight m p).2 :=
  ⟨toNat_shiftRight_one m, bit_seven_shiftRight_one m, setNZ_setsNZC _ _ p⟩

theorem rotateLeft_isRotateLeft (m : Byte) (p : Flags) : IsRotateLeft m p (rotateLeft m p).1 (rotateLeft m p).2 :=
  ⟨rotateLeft_toNat m p, setNZ_setsNZC _ _ p⟩

theorem rotateRight_isRotateRight (m : Byte) (p : Flags) :
    IsRotateRight m p (rotateRight m p).1 (rotateRight m p).2 :=
  ⟨rotateRight_toNat m p, bit_seven_rotateRight m p, setNZ_setsNZC _ _ p⟩

/-! ### The forms of BIT -/

section

variable {f : Form} {s : State}

theorem Form.Completes.and_answers {penalized : Bool} {Q R : State → Prop} (h : f.Completes s penalized Q)
    (hR : Answers (exec f.instr s) R) : f.Completes s penalized fun t => Q t ∧ R t := by
  obtain ⟨hopcode, t, hexec, hreported, hphase, hQ⟩ := h
  obtain ⟨u, hexec', hRu⟩ := hR
  cases hexec.symm.trans hexec'
  exact ⟨hopcode, t, hexec, hreported, hphase, hQ, hRu⟩

/-- R43: a read-class form without pointer reads makes one read, which of a plain cell leaves the platform. -/
theorem Form.Reads.answers_plat {op : Byte → State → State} (h : f.Reads op) (hop : ∀ m u, (op m u).plat = u.plat)
    (hresolved : f.resolvedState s = s) :
    Answers (exec f.instr s) fun t => IsPlain s (f.ea s) → t.plat = s.plat := by
  refine ⟨_, (h.exec s).trans (readInstr_eq _ _ _), fun hplain => ?_⟩
  have hread : (memRead (f.ea s) (f.resolvedState s)).2.plat = s.plat := by rw [hresolved, memRead_plain hplain]
  rw [State.retire_plat, hop]
  exact hread

/-- R103: a form that crosses no page has no penalty. -/
theorem Form.Completes.unpenalized {Q : State → Prop} (h : f.Completes s true Q) (hcrossed : (f.mode s).crossed = false) :
    f.Completes s false Q := by
  rw [Form.Completes, hcrossed] at h
  exact h

/-- The modes of BIT read no pointer. -/
theorem resolvedState_of_mem_bitForms {b : Byte} {w : Addr} (h : f ∈ bitForms b w) : f.resolvedState s = s := by
  unfold bitForms at h
  fin_cases h <;> rfl

/-- Nor do they cross a page. -/
theorem crossed_of_mem_bitForms {b : Byte} {w : Addr} (h : f ∈ bitForms b w) : (f.mode s).crossed = false := by
  unfold bitForms at h
  fin_cases h <;> rfl

/-! ### Operations with a result and flags -/

/-- R92: an accumulator form puts the result of its operation in `A` and makes no access. -/
theorem accInstr_answers {op : Byte → Flags → Byte × Flags} {Is : Byte → Flags → Byte → Flags → Prop}
    (hop : ∀ m p, Is m p (op m p).1 (op m p).2) (s : State) :
    Answers (accInstr s op) fun t => Is s.a s.p t.a t.p ∧ t.plat = s.plat ∧ t.bus = s.bus ∧ t.reported = 2 :=
  ⟨_, rfl, hop s.a s.p, rfl, rfl, rfl⟩

/-- R90: a read-modify-write form writes the result of its operation back. -/
theorem Form.Modifies.completes_result {op : Byte → Flags → Byte × Flags} {Is : Byte → Flags → Byte → Flags → Prop}
    (h : f.Modifies op) (hinv : StateInv (f.resolvedState s)) (hop : ∀ m p, Is m p (op m p).1 (op m p).2) :
    f.Completes s false fun t => ∃ r, Is (f.operand s) s.p r t.p ∧
      t.bus = (f.resolvedState s).bus ++ [.read .data (s.mask (f.ea s)) (f.operand s), .write (s.mask (f.ea s)) r] ∧
      (IsRam (f.resolvedState s) (f.ea s) → byteAt t (f.ea s) = r) :=
  (h.completes hinv).mono fun _ ⟨hflags, hbus, hram⟩ => ⟨_, hflags ▸ hop _ _, hbus, hram⟩

/-- The memory forms of the shifts and rotates are read-modify-write forms. -/
theorem mem_rmwForms_of_shift {b : Byte} {w : Addr}
    (h : f ∈ aslForms b w ++ lsrForms b w ++ rolForms b w ++ rorForms b w) : f ∈ rmwForms b w := by
  simp only [rmwForms, List.mem_append] at h ⊢
  tauto

end

/-! ### The statements -/

/-- Settles O37: each form loads `A` with the bitwise operation on it and the operand (R150 to R152). -/
theorem logicOperatesBitwise : Obligations.LogicOperatesBitwise := by
  unfold Obligations.LogicOperatesBitwise
  intro s m b w
  refine ⟨⟨_, rfl, bit_and s.a m, setNZ_setsNZ _ s.p, rfl, rfl⟩, ⟨_, rfl, bit_or s.a m, setNZ_setsNZ _ s.p, rfl, rfl⟩,
    ⟨_, rfl, bit_xor s.a m, setNZ_setsNZ _ s.p, rfl, rfl⟩, rfl, rfl, rfl,
    fun f hf => ?and, fun f hf => ?or, fun f hf => ?xor⟩
  case and => exact (reads_of_mem_andForms hf).completes fun _ _ _ => ⟨bit_and s.a _, setNZ_setsNZ _ s.p⟩
  case or => exact (reads_of_mem_oraForms hf).completes fun _ _ _ => ⟨bit_or s.a _, setNZ_setsNZ _ s.p⟩
  case xor => exact (reads_of_mem_eorForms hf).completes fun _ _ _ => ⟨bit_xor s.a _, setNZ_setsNZ _ s.p⟩

/-- Settles O38: Z from the and, N and V from the byte itself (R153); the one access is the read of the byte. -/
theorem bitTestsMemory : Obligations.BitTestsMemory := by
  unfold Obligations.BitTestsMemory
  intro s b w f hf
  have hreads := reads_of_mem_bitForms hf
  have hplat := hreads.answers_plat (fun _ _ => rfl) (resolvedState_of_mem_bitForms (s := s) hf)
  have hflags : f.Completes s false fun t => t.p = bitFlags s.a (f.operand s) s.p ∧ t.a = s.a :=
    (hreads.completes fun _ _ _ => ⟨rfl, rfl⟩).unpenalized (crossed_of_mem_bitForms hf)
  refine (hflags.and_answers hplat).mono fun t ⟨⟨hp, ha⟩, hplatform⟩ => ?_
  rw [hp]
  exact ⟨decide_eq_true_iff.trans (and_eq_zero_iff_no_common_bit _ _), rfl, rfl, rfl, rfl, rfl, ha, hplatform⟩

/-- Settles O39: the accumulator forms and the read-modify-write forms share one operation on a byte (R92, R154 to R157). -/
theorem shiftsAndRotates : Obligations.ShiftsAndRotates := by
  unfold Obligations.ShiftsAndRotates
  intro s b w hinv
  have hresolved {f : Form} (hf : f ∈ aslForms b w ++ lsrForms b w ++ rolForms b w ++ rorForms b w) :
      StateInv (f.resolvedState s) :=
    (resolvedState_of_mem_rmwForms (mem_rmwForms_of_shift hf)).symm ▸ hinv
  refine ⟨accInstr_answers shiftLeft_isShiftLeft s, accInstr_answers shiftRight_isShiftRight s,
    accInstr_answers rotateLeft_isRotateLeft s, accInstr_answers rotateRight_isRotateRight s, rfl, rfl, rfl, rfl,
    fun f hf => ?asl, fun f hf => ?lsr, fun f hf => ?rol, fun f hf => ?ror⟩
  case asl => exact (modifies_of_mem_aslForms hf).completes_result (hresolved (by simp [hf])) shiftLeft_isShiftLeft
  case lsr => exact (modifies_of_mem_lsrForms hf).completes_result (hresolved (by simp [hf])) shiftRight_isShiftRight
  case rol => exact (modifies_of_mem_rolForms hf).completes_result (hresolved (by simp [hf])) rotateLeft_isRotateLeft
  case ror => exact (modifies_of_mem_rorForms hf).completes_result (hresolved (by simp [hf])) rotateRight_isRotateRight

end Sys2Proof

/-! ## Jumps and subroutines -/

namespace Sys2Proof

open Sys2Proof.Machine

/-! ### Bytes that accesses of plain cells read and leave -/

section

variable {s t : State} {l : List BusAccess} {a b : Addr}

theorem isPlain_of_isRam (h : IsRam s a) : IsPlain s a := by simp [IsPlain, h]

/-- R43: of two data reads the first gives what a plain cell holds, whatever the second is of; where both are of plain
cells, so does the second, and the platform is as before. -/
theorem Machine.Does.two_data_reads_plain {lo hi : Byte}
    (h : Does s [.read .data (s.mask a) lo, .read .data (s.mask b) hi] t) :
    (IsPlain s a → lo = byteAt s a) ∧ (IsPlain s a → IsPlain s b → hi = byteAt s b ∧ t.plat = s.plat) := by
  obtain ⟨-, -, hplat⟩ := h
  generalize t.plat = M at hplat ⊢
  cases hplat with
  | read _ _ rest =>
    refine ⟨fun ha => Platform.value_plain ha (by decide), fun ha hb => ?_⟩
    rw [Platform.afterRead_plain ha] at rest
    cases rest with
    | read _ _ done =>
      rw [Platform.afterRead_plain hb] at done
      cases done
      exact ⟨Platform.value_plain hb (by decide), rfl⟩

/-- R1: at least one address bit is wired. -/
theorem StateInv.one_le_addrWidth (h : StateInv s) : 1 ≤ s.cfg.addrWidth := by
  have hconfig := h.config
  rw [Config.wellFormed, Bool.and_eq_true, decide_eq_true_iff] at hconfig
  obtain ⟨⟨hlow, -⟩, -⟩ := hconfig
  exact hlow

/-- R16: `PC` is a bus address. -/
theorem StateInv.mask_pc (h : StateInv s) : s.mask s.pc = s.pc := maskTo_eq_self h.pcFits

/-- R43, R56: after accesses of plain cells a RAM cell holds what was last written to it. -/
theorem Machine.Does.byteAt_ram (h : Does s l t) (honly : OnlyPlain s t) (hmem : s.mem.wf = true) (hram : IsRam s a) :
    byteAt t a = (lastWrite (s.mask a) l).getD (byteAt s a) := by
  rw [byteAt, State.mask_congr h.cfg]
  exact h.plat.read_ram (h.onlyPlain.mp honly) hmem hram

/-- An instruction that accesses plain cells alone leaves what the addresses are. -/
theorem isPlain_iff_of_exec {i : Instr} (h : exec i s = .next t) (honly : OnlyPlain s t) (a : Addr) :
    IsPlain t a ↔ IsPlain s a := by
  obtain ⟨l, hdoes, -⟩ := exec_storesTo h
  have hkind : t.kindAt (s.mask a) = s.kindAt (s.mask a) :=
    Platform.kindAt_congr (hdoes.plat.regions (hdoes.onlyPlain.mp honly)) _
  rw [IsPlain, State.mask_congr hdoes.cfg, hkind]

end

/-! ### The accesses of the jumps -/

/-- R101, R170: JMP indirect reads the two pointer bytes and jumps to their word. -/
theorem jmpInd_answers (w : Addr) (s : State) :
    ∃ lo hi : Byte, Answers (exec (.jmpInd w) s) fun t =>
      Does s [.read .data (s.mask w) lo, .read .data (s.mask (wordOf (hiByte w) (loByte w + 1#8))) hi] t ∧
        t.pc = s.mask (wordOf hi lo) ∧ t.sp = s.sp ∧ t.p = s.p ∧ t.reported = 5 :=
  ⟨_, _, _, rfl, ((memRead_does w s).trans (memRead_does _ _)).trans (.none rfl rfl rfl), by simp [modeInd], by simp,
    by simp, by simp⟩

/-- R173: RTS pulls two bytes, the low one first, and jumps to their word plus 1. -/
theorem rts_answers (s : State) :
    ∃ lo hi : Byte, Answers (exec .rts s) fun t =>
      Does s [.read .data (s.mask (stackAddr (s.sp + 1#8))) lo, .read .data (s.mask (stackAddr (s.sp + 2#8))) hi] t ∧
        t.pc = s.mask (wordOf hi lo + 1#16) ∧ t.sp = s.sp + 2#8 ∧ t.p = s.p ∧ t.reported = 6 := by
  have hsp : s.sp + 1#8 + 1#8 = s.sp + 2#8 := BitVec.add_assoc s.sp 1#8 1#8
  have hpulled := pullWord_does s
  rw [hsp] at hpulled
  exact ⟨_, _, _, rfl, hpulled.trans (.none rfl rfl rfl), by simp [pullWord], by simpa using hsp, by simp, by simp⟩

/-- R172: JSR pushes `PC`, fetches its third byte at `PC`, and jumps to the word of that byte and its second. -/
theorem jsr_answers {s : State} (hinv : StateInv s) (target : Addr) :
    ∃ b3 : Byte, Answers (exec (.jsr target) s) fun t =>
      Does s
          [.write (s.mask (stackAddr s.sp)) (hiByte s.pc), .write (s.mask (stackAddr (s.sp - 1#8))) (loByte s.pc),
            .read .operand s.pc b3] t ∧
        t.pc = s.mask (wordOf b3 (loByte target)) ∧ t.sp = s.sp - 2#8 ∧ t.p = s.p ∧ t.reported = 6 := by
  have hsp : s.sp - 1#8 - 1#8 = s.sp - 2#8 := by bv_omega
  have hfetch := fetchOperand_does (pushWord s.pc s)
  rw [pushWord_mask, pushWord_pc, hinv.mask_pc] at hfetch
  exact ⟨_, _, rfl, ((pushWord_does s.pc s).trans hfetch).trans (.none rfl rfl rfl), by simp, by simpa using hsp,
    by simp, by simp⟩

/-! ### The statements -/

/-- Settles O40: the operand, or the word of the two bytes at the pointer, masked to the width of `PC` (R101, R170). -/
theorem jumpsLoadPc : Obligations.JumpsLoadPc := by
  unfold Obligations.JumpsLoadPc
  intro s w
  refine ⟨⟨_, rfl, toNat_maskTo _ w, rfl, rfl, rfl, rfl, rfl⟩, ?_, rfl, rfl⟩
  obtain ⟨lo, hi, t, hexec, hdoes, hpc, hsp, hp, hreported⟩ := jmpInd_answers w s
  obtain ⟨hlo, hhi⟩ := hdoes.two_data_reads_plain
  have htarget : t.pc.toNat = (hi.toNat * 256 + lo.toNat) % 2 ^ s.cfg.addrWidth := by
    rw [hpc, State.mask, toNat_maskTo, toNat_wordOf]
  exact ⟨t, hexec, lo, hi, _, rfl, hdoes.bus, htarget, hlo, hhi, hp, hsp, hreported⟩

/-- Settles O41: the pushed bytes are the last writes of their two cells, which differ for every width, and the third
byte is read after all writes (R14, R51, R172). -/
theorem jsrPushesReturnAddress : Obligations.JsrPushesReturnAddress := by
  unfold Obligations.JsrPushesReturnAddress
  intro s target hinv
  obtain ⟨b3, t, hexec, hdoes, hpc, hsp, hp, hreported⟩ := jsr_answers hinv target
  have hthird (honly : OnlyPlain s t) : b3 = byteAt t s.pc := by
    rw [byteAt, State.mask_congr hdoes.cfg, hinv.mask_pc]
    exact hdoes.plat.read_value (l := [_, _]) (hdoes.onlyPlain.mp honly) (by decide) (by simp)
  have hhigh (honly : OnlyPlain s t) (hram : IsRam s (stackAddr s.sp)) : byteAt t (stackAddr s.sp) = hiByte s.pc := by
    have hne : s.mask (stackAddr (s.sp - 1#8)) ≠ s.mask (stackAddr s.sp) := fun heq =>
      stack_cells_ne hinv.one_le_addrWidth s.sp (congrArg BitVec.toNat heq).symm
    rw [hdoes.byteAt_ram honly hinv.memWf hram]
    simp [lastWrite, hne]
  have hlow (honly : OnlyPlain s t) (hram : IsRam s (stackAddr (s.sp - 1#8))) :
      byteAt t (stackAddr (s.sp - 1#8)) = loByte s.pc := by
    rw [hdoes.byteAt_ram honly hinv.memWf hram]
    simp [lastWrite]
  have helsewhere (honly : OnlyPlain s t) : MemorySameBut [stackAddr s.sp, stackAddr (s.sp - 1#8)] s t := by
    obtain ⟨hmemory, -, -⟩ := memoryChangesOnlyWhereStored _ s t hexec honly
    exact hmemory
  exact ⟨t, hexec, hsp, hp, hreported, ⟨b3, hpc, hdoes.bus, hthird⟩,
    fun honly => ⟨hhigh honly, hlow honly, helsewhere honly⟩⟩

/-- Settles O42: the pulled word plus 1, mod 65536, masked to the width of `PC` (R173). -/
theorem rtsPullsReturnAddress : Obligations.RtsPullsReturnAddress := by
  unfold Obligations.RtsPullsReturnAddress
  intro s
  obtain ⟨lo, hi, t, hexec, hdoes, hpc, hsp, hp, hreported⟩ := rts_answers s
  obtain ⟨hlo, hhi⟩ := hdoes.two_data_reads_plain
  have htarget : t.pc.toNat = (hi.toNat * 256 + lo.toNat + 1) % 65536 % 2 ^ s.cfg.addrWidth := by
    rw [hpc, State.mask, toNat_maskTo, BitVec.toNat_add, toNat_wordOf]
    rfl
  exact ⟨t, hexec, hsp, hp, hreported, lo, hi, hdoes.bus, htarget, hlo, hhi, rfl⟩

/-- Settles O43: the three accesses of JSR are of plain cells, so RTS pulls the bytes that JSR pushed, whose word is the
address of the third byte of JSR (R172, R173). -/
theorem rtsReturnsFromJsr : Obligations.RtsReturnsFromJsr := by
  unfold Obligations.RtsReturnsFromJsr
  intro s target hinv hramHigh hramLow hthird
  obtain ⟨t, hexec, hsp, hp, -, ⟨b3, -, hbus, -⟩, hpushed⟩ := jsrPushesReturnAddress s target hinv
  have honly : OnlyPlain s t := by
    rw [OnlyPlain, newAccesses, hbus, List.drop_left]
    simpa [BusAccess.addr] using ⟨isPlain_of_isRam hramHigh, isPlain_of_isRam hramLow, hinv.mask_pc ▸ hthird⟩
  obtain ⟨hhigh, hlow, -⟩ := hpushed honly
  obtain ⟨-, -, -, -, hcfg⟩ := (exec_frame hexec).inputs
  have hsp1 : t.sp + 1#8 = s.sp - 1#8 := by rw [hsp]; bv_omega
  have hsp2 : t.sp + 2#8 = s.sp := by rw [hsp]; bv_omega
  have hplainHigh := (isPlain_iff_of_exec hexec honly _).mpr (isPlain_of_isRam hramHigh)
  have hplainLow := (isPlain_iff_of_exec hexec honly _).mpr (isPlain_of_isRam hramLow)
  obtain ⟨u, hexec', husp, hup, -, lo, hi, -, hupc, hlo, hhi, -⟩ := rtsPullsReturnAddress t
  rw [hsp1] at hlo hhi
  rw [hsp2] at hhi
  have hloPulled : lo = loByte s.pc := (hlo hplainLow).trans (hlow hramLow)
  obtain ⟨hhiRead, -⟩ := hhi hplainLow hplainHigh
  have hhiPulled : hi = hiByte s.pc := hhiRead.trans (hhigh hramHigh)
  have hreturn : u.pc = s.nextPc 1 := by
    apply BitVec.eq_of_toNat_eq
    rw [hupc, hcfg, hloPulled, hhiPulled, ← toNat_wordOf, wordOf_hiByte_loByte, State.nextPc, State.mask,
      toNat_maskTo, BitVec.toNat_add]
    rfl
  exact ⟨t, hexec, u, hexec', hreturn, husp.trans hsp2, hup.trans hp⟩

end Sys2Proof

/-! ## Stack instructions -/

namespace Sys2Proof

open Sys2Proof.Machine

/-- R15, R43: a pull gives the byte that a plain stack cell holds. -/
theorem pull_value_plain {s : State} (h : IsPlain s (stackAddr (s.sp + 1#8))) :
    (pull s).1 = byteAt s (stackAddr (s.sp + 1#8)) := by
  rw [pull_plain h]
  rfl

/-- Settles O45: one push (R14) of `A`, or of the six flags with bits 5 and 4 set (R18), and no flag written. -/
theorem pushInstructionsStore : Obligations.PushInstructionsStore := by
  unfold Obligations.PushInstructionsStore
  intro s hinv
  have hstored (v : Byte) (hram : IsRam s (stackAddr s.sp)) :
      byteAt ((push v s).retire 3) (stackAddr s.sp) = v :=
    push_read_same hinv.memWf hram
  refine ⟨⟨_, rfl, ?pha⟩, ⟨_, rfl, packP true s.p, ?php⟩, rfl, rfl⟩
  case pha => exact ⟨push_sp s.a s, push_a s.a s, push_p s.a s, rfl, push_bus s.a s, hstored s.a⟩
  case php =>
    exact ⟨push_sp (packP true s.p) s, push_p (packP true s.p) s, rfl, unpackP_packP true s.p,
      packP_bit5 true s.p, packP_bit4 true s.p, push_bus (packP true s.p) s, hstored (packP true s.p)⟩

/-- Settles O46: one pull (R15), of `A` with N and Z set from it, or of the six flags by `UnpackP` (R18). -/
theorem pullInstructionsLoad : Obligations.PullInstructionsLoad := by
  unfold Obligations.PullInstructionsLoad
  intro s
  refine ⟨⟨_, rfl, ?pla⟩, ⟨_, rfl, (pull s).1, ?plp⟩, rfl, rfl⟩
  case pla => exact ⟨pull_sp s, setNZ_setsNZ (pull s).1 s.p, rfl, pull_bus s, pull_value_plain⟩
  case plp => exact ⟨pull_sp s, rfl, pull_bus s, rfl, pull_value_plain⟩

end Sys2Proof

/-! ## Flag instructions, NOP, BRK and RTI -/

namespace Sys2Proof

open Sys2Proof.Machine

/-! ### What accesses of plain cells alone leave and give -/

section

variable {s t : State} {l : List BusAccess} {a : Addr}

/-- R43, R53: accesses of plain cells change the program space only where they write. -/
theorem StoresTo.memorySameBut {addrs : List Addr} (h : StoresTo addrs s t) (honly : OnlyPlain s t) :
    MemorySameBut addrs s t := by
  obtain ⟨l, hdoes, hwritten⟩ := h
  intro k hk
  refine hdoes.plat.read_other (hdoes.onlyPlain.mp honly) fun b v hwrite => ?_
  have hb : b ∈ addrs.map s.mask := hwritten ▸ mem_writtenTo.mpr ⟨v, hwrite⟩
  obtain ⟨c, hc, rfl⟩ := List.mem_map.mp hb
  exact hk c hc

/-- Accesses of plain cells leave what the addresses are. -/
theorem Machine.Does.isPlain_iff (h : Does s l t) (honly : OnlyPlain s t) (a : Addr) : IsPlain t a ↔ IsPlain s a := by
  have hkind : t.kindAt (s.mask a) = s.kindAt (s.mask a) :=
    Platform.kindAt_congr (h.plat.regions (h.onlyPlain.mp honly)) _
  rw [IsPlain, State.mask_congr h.cfg, hkind]

/-- R43: a data read that comes first gives what a plain cell holds, whatever the later accesses are of. -/
theorem Machine.Does.first_read_plain {v : Byte} (h : Does s (.read .data (s.mask a) v :: l) t) (ha : IsPlain s a) :
    v = byteAt s a := by
  obtain ⟨-, -, hplat⟩ := h
  generalize t.plat = M at hplat
  cases hplat with
  | read => exact Platform.value_plain ha (by decide)

end

/-! ### The entry -/

theorem byte_sub_one_sub_one (sp : Byte) : sp - 1#8 - 1#8 = sp - 2#8 := by bv_omega

/-- R18, R231: of the three kinds only BRK pushes bit 4 as 1. -/
theorem breakBit_eq_decide (k : InterruptKind) : breakBit k = decide (k = .brk) := by cases k <;> rfl

section

variable {s : State}

/-- Neighbouring stack bytes lie in different cells, for every width of R1. -/
theorem mask_stackAddr_sub_one_ne (h : 1 ≤ s.cfg.addrWidth) (sp : Byte) :
    s.mask (stackAddr (sp - 1#8)) ≠ s.mask (stackAddr sp) := fun heq =>
  stack_cells_ne h sp (congrArg BitVec.toNat heq).symm

/-- Stack bytes two apart lie in different cells when W is at least 2. -/
theorem mask_stackAddr_sub_two_ne (h : 2 ≤ s.cfg.addrWidth) (sp : Byte) :
    s.mask (stackAddr (sp - 2#8)) ≠ s.mask (stackAddr sp) := fun heq =>
  stack_cells_ne_two h sp (by rw [byte_sub_one_sub_one, heq])

/-- R236: the accesses of an entry, in the words of `Entered`. -/
theorem raiseInterrupt_accesses (k : InterruptKind) (s : State) :
    ∃ lo hi : Byte,
      Does s
        [.write (s.mask (stackAddr s.sp)) (hiByte s.pc), .write (s.mask (stackAddr (s.sp - 1#8))) (loByte s.pc),
          .write (s.mask (stackAddr (s.sp - 2#8))) (packP (decide (k = .brk)) s.p),
          .read .vector (s.mask (vectorAddr k)) lo, .read .vector (s.mask (vectorAddr k + 1#16)) hi]
        (raiseInterrupt k s) ∧
      (raiseInterrupt k s).pc = s.mask (wordOf hi lo) := by
  rw [← byte_sub_one_sub_one, ← breakBit_eq_decide]
  exact raiseInterrupt_does k s

/-- R236: where the accesses of an entry are of plain cells, each of its stack cells that is RAM holds the byte pushed
there; with W = 1 the status byte overwrites the high byte. -/
theorem raiseInterrupt_pushed (k : InterruptKind) (hinv : StateInv s) (honly : OnlyPlain s (raiseInterrupt k s)) :
    (2 ≤ s.cfg.addrWidth → IsRam s (stackAddr s.sp) →
      byteAt (raiseInterrupt k s) (stackAddr s.sp) = hiByte s.pc) ∧
    (IsRam s (stackAddr (s.sp - 1#8)) → byteAt (raiseInterrupt k s) (stackAddr (s.sp - 1#8)) = loByte s.pc) ∧
    (IsRam s (stackAddr (s.sp - 2#8)) →
      byteAt (raiseInterrupt k s) (stackAddr (s.sp - 2#8)) = packP (decide (k = .brk)) s.p) := by
  obtain ⟨lo, hi, hdoes, -⟩ := raiseInterrupt_accesses k s
  have hlast {a : Addr} (hram : IsRam s a) := hdoes.byteAt_ram honly hinv.memWf hram
  have hwired := hinv.one_le_addrWidth
  refine ⟨fun hwidth hram => ?high, fun hram => ?low, fun hram => ?status⟩ <;> rw [hlast hram]
  case high => simp [lastWrite, mask_stackAddr_sub_one_ne hwired, mask_stackAddr_sub_two_ne hwidth]
  case low =>
    have hne : s.mask (stackAddr (s.sp - 2#8)) ≠ s.mask (stackAddr (s.sp - 1#8)) := by
      rw [← byte_sub_one_sub_one]
      exact mask_stackAddr_sub_one_ne hwired (s.sp - 1#8)
    simp [lastWrite, hne]
  case status => simp [lastWrite]

/-- R236: the whole entry, of each kind. -/
theorem raiseInterrupt_entered (k : InterruptKind) (s : State) : Entered k s (raiseInterrupt k s) := by
  obtain ⟨lo, hi, hdoes, hpc⟩ := raiseInterrupt_accesses k s
  have hsp : (raiseInterrupt k s).sp = s.sp - 3#8 := by
    rw [raiseInterrupt_sp]
    bv_omega
  have hvector : vectorAddr k = if k = .nmi then 0xFFFA#16 else 0xFFFE#16 := by cases k <;> rfl
  have hread (honly : OnlyPlain s (raiseInterrupt k s)) :
      lo = byteAt (raiseInterrupt k s) (vectorAddr k) ∧ hi = byteAt (raiseInterrupt k s) (vectorAddr k + 1#16) := by
    have hplain := hdoes.onlyPlain.mp honly
    rw [byteAt, byteAt, State.mask_congr hdoes.cfg, State.mask_congr hdoes.cfg]
    exact ⟨hdoes.plat.read_value (l := [_, _, _]) hplain (by decide) (by simp),
      hdoes.plat.read_value (l := [_, _, _, _]) hplain (by decide) (by simp)⟩
  have hstores : StoresTo [stackAddr s.sp, stackAddr (s.sp - 1#8), stackAddr (s.sp - 2#8)] s (raiseInterrupt k s) :=
    ⟨_, hdoes, rfl⟩
  exact ⟨hsp, raiseInterrupt_p k s, raiseInterrupt_a k s, raiseInterrupt_x k s, raiseInterrupt_y k s, hvector,
    packP_bit5 _ s.p, packP_bit4 _ s.p, unpackP_packP _ s.p, ⟨lo, hi, hdoes.bus, hpc, hread⟩, fun hinv honly =>
    have ⟨hhigh, hlow, hstatus⟩ := raiseInterrupt_pushed k hinv honly
    ⟨hhigh, hlow, hstatus, hstores.memorySameBut honly⟩⟩

/-- `Entered` says nothing of the fields that the end of an instruction writes (R105). -/
theorem entered_retire {k : InterruptKind} {t : State} (h : Entered k s t) (cycles : Nat) :
    Entered k s (t.retire cycles) := h

end

/-! ### The return -/

/-- R209, R239: RTI pulls three bytes, the flags from the first, and jumps to the word of the other two, low byte first. -/
theorem rti_answers (s : State) :
    ∃ v lo hi : Byte, Answers (exec .rti s) fun t =>
      Does s
          [.read .data (s.mask (stackAddr (s.sp + 1#8))) v, .read .data (s.mask (stackAddr (s.sp + 2#8))) lo,
            .read .data (s.mask (stackAddr (s.sp + 3#8))) hi] t ∧
        t.p = unpackP v ∧ t.pc = s.mask (wordOf hi lo) ∧ t.sp = s.sp + 3#8 ∧ t.phase = .atCheck ∧ t.reported = 6 := by
  have hsp2 : s.sp + 1#8 + 1#8 = s.sp + 2#8 := BitVec.add_assoc s.sp 1#8 1#8
  have hsp3 : s.sp + 2#8 + 1#8 = s.sp + 3#8 := BitVec.add_assoc s.sp 2#8 1#8
  have hpulled := returnFromInterrupt_does s
  rw [hsp2, hsp3] at hpulled
  exact ⟨_, _, _, _, rfl, hpulled.trans (.none rfl rfl rfl), returnFromInterrupt_p s, returnFromInterrupt_pc s,
    by simp [hsp2, hsp3], rfl, rfl⟩

/-! ### The statements -/

/-- R91, R200 to R206: an implied instruction that replaces the flags writes nothing else but phase and report. -/
theorem impliedInstr_withP (s : State) (p : Flags) :
    impliedInstr (s.withP p) = .next { s with p := p, phase := .atCheck, cyc := 0, reported := 2 } := rfl

/-- Settles O47: seven implied instructions replace the flags by those of `s` with one of them written; NOP replaces none. -/
theorem flagInstructionsWriteOneFlag : Obligations.FlagInstructionsWriteOneFlag := by
  unfold Obligations.FlagInstructionsWriteOneFlag
  intro s
  have hwrite := impliedInstr_withP s
  exact ⟨hwrite _, hwrite _, hwrite _, hwrite _, hwrite _, hwrite _, hwrite _, hwrite s.p,
    rfl, rfl, rfl, rfl, rfl, rfl, rfl, rfl⟩

/-- Settles O48: BRK is the entry of R236 from the state past its padding byte, then the end of an instruction (R208). -/
theorem brkEntersThroughIrqVector : Obligations.BrkEntersThroughIrqVector := by
  unfold Obligations.BrkEntersThroughIrqVector
  intro s
  have hexec : exec .brk s = .next ((raiseInterrupt .brk s.advance).retire 7) := rfl
  have hentered : Entered .brk { s with pc := s.nextPc 1 } ((raiseInterrupt .brk s.advance).retire 7) :=
    entered_retire (raiseInterrupt_entered .brk s.advance) 7
  exact ⟨_, hexec, hentered, (exec_frame hexec).inputs, rfl, rfl, packP_bit5 true s.p, packP_bit4 true s.p,
    unpackP_packP true s.p, rfl⟩

/-- Settles O49: three reads leave a platform of plain cells as it was, so each gives what its cell held before (R209). -/
theorem rtiPullsStatusAndPc : Obligations.RtiPullsStatusAndPc := by
  unfold Obligations.RtiPullsStatusAndPc
  intro s
  obtain ⟨v, lo, hi, t, hexec, hdoes, hp, hpc, hsp, hphase, hreported⟩ := rti_answers s
  have hframe := exec_frame hexec
  have hwords (honly : OnlyPlain s t) :
      lo = byteAt s (stackAddr (s.sp + 2#8)) ∧ hi = byteAt s (stackAddr (s.sp + 3#8)) ∧ t.plat = s.plat := by
    have hplain := hdoes.onlyPlain.mp honly
    have hplat : t.plat = s.plat := hdoes.plat.reads hplain (by simp)
    have hlo := hdoes.plat.read_value (l := [_]) hplain (by decide) (by simp)
    have hhi := hdoes.plat.read_value (l := [_, _]) hplain (by decide) (by simp)
    rw [hplat] at hlo hhi
    exact ⟨hlo, hhi, hplat⟩
  exact ⟨t, hexec, hsp, hframe.a rfl, hframe.x rfl, hframe.y rfl, hphase, hreported, rfl, v, lo, hi, hdoes.bus, hp, hpc,
    hdoes.first_read_plain, hwords⟩

/-- R209: RTI with its three bytes in plain cells. -/
theorem rti_plain {s : State} (hstatus : IsPlain s (stackAddr (s.sp + 1#8))) (hlow : IsPlain s (stackAddr (s.sp + 2#8)))
    (hhigh : IsPlain s (stackAddr (s.sp + 3#8))) :
    Answers (exec .rti s) fun t =>
      t.pc = s.mask (wordOf (byteAt s (stackAddr (s.sp + 3#8))) (byteAt s (stackAddr (s.sp + 2#8)))) ∧
        t.p = unpackP (byteAt s (stackAddr (s.sp + 1#8))) ∧ t.sp = s.sp + 3#8 ∧ t.a = s.a ∧ t.x = s.x ∧ t.y = s.y := by
  obtain ⟨t, hexec, hsp, ha, hx, hy, -, -, -, v, lo, hi, hbus, hp, hpc, hv, hwords⟩ := rtiPullsStatusAndPc s
  have honly : OnlyPlain s t := by
    rw [OnlyPlain, newAccesses, hbus, List.drop_left]
    simpa [BusAccess.addr] using ⟨hstatus, hlow, hhigh⟩
  obtain ⟨rfl, rfl, -⟩ := hwords honly
  obtain rfl := hv hstatus
  exact ⟨t, hexec, hpc, hp, hsp, ha, hx, hy⟩

/-- Settles O16: the accesses of the entry are of plain cells, so the three bytes it pushed lie at the three stack bytes
that RTI pulls: different cells, since W is at least 2 (R209, R236, R239). -/
theorem returnUndoesEntry : Obligations.ReturnUndoesEntry := by
  unfold Obligations.ReturnUndoesEntry
  intro k s hinv hwidth hramHigh hramLow hramStatus hvector hvector'
  obtain ⟨lo, hi, hdoes, -⟩ := raiseInterrupt_accesses k s
  obtain ⟨hsp, -, ha, hx, hy, -, -, -, hunpack, -, hpushed⟩ := raiseInterrupt_entered k s
  generalize raiseInterrupt k s = t at *
  have honly : OnlyPlain s t := hdoes.onlyPlain.mpr (by
    simpa [BusAccess.addr] using ⟨isPlain_of_isRam hramHigh, isPlain_of_isRam hramLow, isPlain_of_isRam hramStatus,
      hvector, hvector'⟩)
  obtain ⟨hhigh, hlow, hstatus, -⟩ := hpushed hinv honly
  have hplain {a : Addr} (hram : IsRam s a) : IsPlain t a := (hdoes.isPlain_iff honly a).mpr (isPlain_of_isRam hram)
  have hsp1 : t.sp + 1#8 = s.sp - 2#8 := by rw [hsp]; bv_omega
  have hsp2 : t.sp + 2#8 = s.sp - 1#8 := by rw [hsp]; bv_omega
  have hsp3 : t.sp + 3#8 = s.sp := by rw [hsp]; bv_omega
  obtain ⟨u, hexec, hpc, hp, husp, hua, hux, huy⟩ := rti_plain (s := t) (hsp1 ▸ hplain hramStatus)
    (hsp2 ▸ hplain hramLow) (hsp3 ▸ hplain hramHigh)
  rw [hsp2, hsp3, hhigh hwidth hramHigh, hlow hramLow, wordOf_hiByte_loByte, State.mask_congr hdoes.cfg,
    hinv.mask_pc] at hpc
  rw [hsp1, hstatus hramStatus, hunpack] at hp
  exact ⟨u, hexec, hpc, hp, husp.trans hsp3, hua.trans ha, hux.trans hx, huy.trans hy⟩

end Sys2Proof

/-! ## Undefined opcode bytes -/

namespace Sys2Proof

open Sys2Proof.Machine

/-! ### What each row of the policy answers -/

section

variable {s : State} {op : Byte} {rows : List (Byte × UndefEntry)}

theorem execUndefined_refuse (hpolicy : s.cfg.undefPolicy = .refuse) :
    execUndefined op s = .refused (.undefinedOpcode op) := by
  simp [execUndefined, hpolicy]

theorem execUndefined_nop {len cycles : Nat} (hpolicy : s.cfg.undefPolicy = .table rows)
    (hrow : rows.lookup op = some (.nop len cycles)) :
    execUndefined op s = .next ((skipOperands (len - 1) s).retire cycles) := by
  simp [execUndefined, hpolicy, hrow]

theorem execUndefined_jam (hpolicy : s.cfg.undefPolicy = .table rows) (hrow : rows.lookup op = some .jam) :
    execUndefined op s = .next (jam s) := by
  simp [execUndefined, hpolicy, hrow]

theorem execUndefined_op {name : String} (hpolicy : s.cfg.undefPolicy = .table rows)
    (hrow : rows.lookup op = some (.op name)) :
    execUndefined op s = .refused (.undefinedOperation op name) := by
  simp [execUndefined, hpolicy, hrow]

end

/-- R220: the accesses of skipping `k` operand bytes are `k` operand fetches, at `PC` and the addresses that follow. -/
theorem skipOperands_fetches (k : Nat) (s : State) :
    ∃ bytes : List Byte, bytes.length = k ∧
      Does s (bytes.mapIdx fun j v => .read .operand (s.nextPc j) v) (skipOperands k s) := by
  induction k generalizing s with
  | zero => exact ⟨[], rfl, .none rfl rfl rfl⟩
  | succ k ih =>
    obtain ⟨bytes, hlength, hrest⟩ := ih (fetchOperand s).2
    have hfollowing (j : Nat) : (fetchOperand s).2.nextPc j = s.nextPc (j + 1) := by
      rw [Nat.add_comm]
      exact nextPc_of_pc rfl rfl
    have hhere : s.nextPc 0 = s.mask s.pc := by simp [State.nextPc]
    refine ⟨(fetchOperand s).1 :: bytes, by simp [hlength], ?_⟩
    simpa [skipOperands, hfollowing, hhere] using (fetchOperand_does s).trans hrest

/-- Settles O50: a row `nop` skips operand bytes and retires, and a byte it skips is only read; the other rows answer what
`execUndefined` says of them (R220). -/
theorem undefinedBytesFollowThePolicy : Obligations.UndefinedBytesFollowThePolicy := by
  unfold Obligations.UndefinedBytesFollowThePolicy
  intro s op
  refine ⟨execUndefined_refuse, fun rows len cycles hpolicy hrow => ?nop, fun rows => execUndefined_jam,
    fun rows name => execUndefined_op⟩
  have hexec : exec (.undefined op) s = .next ((skipOperands (len - 1) s).retire cycles) :=
    execUndefined_nop hpolicy hrow
  have hframe := exec_frame hexec
  have hplatform (honly : OnlyPlain s ((skipOperands (len - 1) s).retire cycles)) :
      ((skipOperands (len - 1) s).retire cycles).plat = s.plat := by
    obtain ⟨-, -, hnothingStored⟩ := memoryChangesOnlyWhereStored _ s _ hexec honly
    exact hnothingStored rfl
  obtain ⟨bytes, hlength, hfetches⟩ := skipOperands_fetches (len - 1) s
  exact ⟨_, hexec, fun hinv => skipOperands_pc (len - 1) hinv.pcFits, rfl, rfl, hframe.a rfl, hframe.x rfl,
    hframe.y rfl, hframe.sp rfl, skipOperands_p (len - 1) s, hplatform, bytes, hlength, hfetches.bus⟩

/-! ### The jammed core -/

/-- R72, R76: the row of a listed byte is one byte, the verdict `undefined`. -/
theorem opcodeEntry_of_mem_undefinedOpcodes {op : Byte} (h : op ∈ undefinedOpcodes) :
    opcodeEntry op = .f1 (.undefined op) := by
  have hrow : (opcodeEntry op).instr 0 = .undefined op → opcodeEntry op = .f1 (.undefined op) := by
    unfold opcodeEntry
    -- Only the last arm of the table makes an undefined instruction.
    split <;> simp [Entry.instr]
  exact hrow (opcodeEntry_instr_of_mem op h)

/-- The fetch of an undefined byte from a plain cell takes that one byte. -/
theorem fetchInstr_beginStep_undefined {s : State} (hplain : IsPlain s s.pc)
    (hlisted : opcodeByteAt s s.pc ∈ undefinedOpcodes) :
    fetchInstr s.beginStep = (.undefined (opcodeByteAt s s.pc), s.fetched 1) := by
  simp [fetchInstr, fetchOpcode_beginStep_plain hplain, opcodeEntry_of_mem_undefinedOpcodes hlisted]

/-- Stepping `PC` back over the byte it has advanced past comes back to that byte, also round the end of the address space. -/
theorem mask_nextPc_one_sub_one (s : State) : s.mask (s.nextPc 1 - 1#16) = s.mask s.pc := by
  have hback : s.pc + 1#16 + -1#16 = s.pc := by bv_omega
  calc s.mask (s.nextPc 1 - 1#16)
    _ = s.mask (s.pc + 1#16 + -1#16) := by
      rw [BitVec.sub_eq_add_neg]
      exact maskTo_maskTo_add _ _ _
    _ = s.mask s.pc := by rw [hback]

/-- R220: the step back after the fetch of one byte undoes the fetch but for its record. -/
theorem jam_fetched_one {s : State} (hinv : StateInv s) (hphase : s.phase = .atFetch) :
    jam (s.fetched 1) = { s with bus := [.read .opcode s.pc (opcodeByteAt s s.pc)], reported := 1 } := by
  have hpc : (s.fetched 1).mask ((s.fetched 1).pc - 1#16) = s.pc := (mask_nextPc_one_sub_one s).trans hinv.mask_pc
  have hbus : (s.fetched 1).bus = [.read .opcode s.pc (opcodeByteAt s s.pc)] := by
    simp [State.fetched, fetchAccesses, hinv.mask_pc]
  rw [jam, hpc, hbus, ← hphase, ← hinv.cycZero]
  rfl

/-- Settles O51: the fetch takes the one byte, and the step back returns over it (R220, R276). -/
theorem jamStepReturnsToItsState : Obligations.JamStepReturnsToItsState := by
  unfold Obligations.JamStepReturnsToItsState
  rintro s _ rows hinv hphase hreset hplain rfl hlisted hpolicy hrow
  have hjam := execUndefined_jam (s := s.fetched 1) hpolicy hrow
  rw [step_atFetch hreset hphase, fetchInstr_beginStep_undefined hplain hlisted, ← jam_fetched_one hinv hphase]
  exact hjam

end Sys2Proof

/-! ## The interrupt check and the entry -/

namespace Sys2Proof

open Sys2Proof.Machine

/-- R21, R22, R42: an entry changes no line, no latch and no parameter. -/
theorem raiseInterrupt_inputsSame (k : InterruptKind) (s : State) : InputsSame s (raiseInterrupt k s) :=
  (raiseInterrupt_frame (w := writes .brk) rfl rfl rfl k s).inputs

section

variable {k : InterruptKind} {s t : State}

/-- `Entered` says nothing of the fields that the end of an interrupt check writes (R234). -/
theorem entered_toFetch (h : Entered k s t) (cycles : Nat) :
    Entered k s { t with phase := .atFetch, cyc := 0, reported := cycles } := h

/-- `Entered` says nothing of the latch (R22). -/
theorem entered_of_latch_cleared (h : Entered k { s with nmiPending := false } t) : Entered k s t := by
  obtain ⟨hsp, hp, ha, hx, hy, hvector, hbit5, hbit4, hunpack, hread, hpushed⟩ := h
  exact ⟨hsp, hp, ha, hx, hy, hvector, hbit5, hbit4, hunpack, hread,
    fun hinv => hpushed (hinv.congr rfl rfl rfl rfl)⟩

end

/-- Settles O15: the entry with its frame (R14, R18, R51, R235, R236). -/
theorem entryPushesPcAndStatus : Obligations.EntryPushesPcAndStatus := by
  unfold Obligations.EntryPushesPcAndStatus
  intro k s
  exact ⟨raiseInterrupt_entered k s, raiseInterrupt_inputsSame k s⟩

/-- Settles O14: the check takes the NMI from a cleared latch, else the IRQ, each by the one entry, else nothing (R234,
R236, R237, R285). -/
theorem interruptCheckFollowsPriority : Obligations.InterruptCheckFollowsPriority := by
  unfold Obligations.InterruptCheckFollowsPriority
  intro s hphase hreset
  rw [step_atCheck hreset hphase]
  refine ⟨fun hpending => ?nmi, fun hnone hline hunmasked => ?irq, fun hnone hidle => ?nothing⟩
  case nmi =>
    rw [interruptCheck_nmi (by exact hpending)]
    have hentered := entered_of_latch_cleared (raiseInterrupt_entered .nmi { s.beginStep with nmiPending := false })
    exact ⟨_, rfl, entered_toFetch hentered 7,
      raiseInterrupt_inputsSame .nmi { s.beginStep with nmiPending := false }, rfl, rfl, rfl⟩
  case irq =>
    rw [interruptCheck_irq (by exact hnone) (by exact hline) (by exact hunmasked)]
    exact ⟨_, rfl, entered_toFetch (raiseInterrupt_entered .irq s.beginStep) 7,
      raiseInterrupt_inputsSame .irq s.beginStep, rfl, rfl, rfl⟩
  case nothing =>
    rw [interruptCheck_none (by exact hnone) (by exact hidle)]
    rfl

/-- Settles O18: the last byte pushed is the status, at the address above the new `SP`, and its bit 4 is set for BRK alone
(R18, R242). -/
theorem pushedBitFourTellsBrkFromIrq : Obligations.PushedBitFourTellsBrkFromIrq := by
  unfold Obligations.PushedBitFourTellsBrkFromIrq
  rintro k s _ hinv hram rfl honly
  obtain ⟨-, -, hstatus⟩ := raiseInterrupt_pushed k hinv honly
  have hsp : (raiseInterrupt k s).sp + 1#8 = s.sp - 2#8 := by
    rw [raiseInterrupt_sp]
    bv_omega
  rw [hsp, hstatus hram, packP_bit4, decide_eq_true_iff]

end Sys2Proof

/-! ## Runs -/

namespace Sys2Proof

open Sys2Proof.Machine

/-- Settles O6: a state that the reset line does not hold is safe, so its step is no fault (R270, R276). -/
theorem heldInResetHasNoStep : Obligations.HeldInResetHasNoStep := by
  unfold Obligations.HeldInResetHasNoStep
  intro s
  constructor
  · intro hheld
    have hsafe : SafeState s := everyStateIsSafe s
    simpa [SafeState, hheld] using hsafe
  · intro hreset
    simp [step, hreset]

/-! ### Core steps in a row -/

section

variable {n c : Nat} {s t u : State}

theorem coreSteps_zero (h : CoreSteps 0 s c t) : t = s := by
  cases h
  rfl

/-- One more step at the end of a row of steps. -/
theorem Machine.CoreSteps.snoc (h : CoreSteps n s c t) (last : step t = .next u) :
    CoreSteps (n + 1) s (c + u.reported) u := by
  induction h with
  | zero s => simpa using CoreSteps.succ last (.zero u)
  | @succ n c _ t _ first rest ih => simpa [Nat.add_assoc] using CoreSteps.succ first (ih last)

/-- A row of steps takes the step of its first state: the core has no other. -/
theorem coreSteps_succ_of_step (first : step s = .next t) (h : CoreSteps (n + 1) s c u) :
    ∃ d, CoreSteps n t d u := by
  cases h with
  | succ first' rest =>
    obtain rfl : t = _ := by simpa [first] using first'
    exact ⟨_, rest⟩

end

/-! ### What a step reports -/

/-- R234, R285: an interrupt check is followed by a fetch and reports 7 cycles or none. -/
theorem interruptCheck_ends (s : State) : (interruptCheck s).phase = .atFetch ∧ (interruptCheck s).reported ≤ 7 := by
  unfold interruptCheck
  split
  · exact ⟨rfl, le_rfl⟩
  · split
    · exact ⟨rfl, le_rfl⟩
    · exact ⟨rfl, Nat.zero_le 7⟩

/-- R285: under the policy `refuse` a core step reports at most 7 cycles, and an instruction at least 2. -/
theorem step_reported_of_refuse {s t : State} (hpolicy : s.cfg.undefPolicy = .refuse) (h : step s = .next t) :
    t.reported ≤ 7 ∧
      ((s.phase = .atFetch ∧ t.phase = .atCheck ∧ 2 ≤ t.reported) ∨ (s.phase = .atCheck ∧ t.phase = .atFetch)) := by
  obtain ⟨-, ⟨hphase, hexec⟩ | ⟨hphase, rfl⟩⟩ := step_cases h
  · have hpolicy' : (fetchInstr s.beginStep).2.cfg.undefPolicy = .refuse := by simpa using hpolicy
    generalize fetchInstr s.beginStep = fetched at hexec hpolicy'
    obtain ⟨i, u⟩ := fetched
    cases hdefined : i.isUndefined with
    | false =>
      obtain ⟨t', ht', hnext, -, hlow, hhigh⟩ := exec_completes hdefined u
      obtain rfl : t' = t := by simpa [hexec] using ht'.symm
      exact ⟨hhigh, .inl ⟨hphase, hnext, hlow⟩⟩
    | true =>
      cases i with
      | undefined op => simp [exec, execUndefined_refuse hpolicy'] at hexec
      | _ => cases hdefined
  · obtain ⟨hnext, hhigh⟩ := interruptCheck_ends s.beginStep
    exact ⟨hhigh, .inr ⟨hphase, hnext⟩⟩

/-! ### Run(budget) -/

section

variable {budget c c' : Nat} {s t : State}

theorem runLoop_of_le (h : budget ≤ c) (fuel : Nat) : runLoop fuel budget c s = .done c s := by
  unfold runLoop
  rw [if_pos h]

theorem runLoop_next (h : c < budget) (hstep : step s = .next t) (fuel : Nat) :
    runLoop (fuel + 1) budget c s = runLoop fuel budget (c + t.reported) t := by
  rw [runLoop, if_neg (by omega), hstep]

theorem runLoop_fault (h : c < budget) {r : Fault} (hstep : step s = .fault r) (fuel : Nat) :
    runLoop (fuel + 1) budget c s = .done c s := by
  rw [runLoop, if_neg (by omega), hstep]

/-- What the function answers with any bound on its steps is an end of the loop. -/
theorem runsFor_of_runLoop {fuel : Nat} (h : runLoop fuel budget c s = .done c' t) : RunsFor budget c s c' t := by
  fun_induction runLoop fuel budget c s with
  | case1 fuel budget c s hle =>
    cases h
    exact .consumed hle
  | case2 => cases h  -- out of fuel
  | case3 budget c s hlt fuel u hstep ih => exact .more (Nat.lt_of_not_le hlt) hstep (ih h)
  | case4 budget c s hlt fuel r hstep =>
    cases h
    exact .held hstep
  | case5 => cases h  -- refused

/-- An end of the loop is what the function answers, with one step of fuel for each step of the loop. -/
theorem exists_runLoop_of_runsFor (h : RunsFor budget c s c' t) : ∃ fuel, runLoop fuel budget c s = .done c' t := by
  induction h with
  | consumed hle => exact ⟨0, runLoop_of_le hle 0⟩
  | @held c s hheld =>
    obtain hle | hlt := le_or_gt budget c
    · exact ⟨0, runLoop_of_le hle 0⟩
    · exact ⟨1, runLoop_fault hlt hheld 0⟩
  | more below first _ ih =>
    obtain ⟨fuel, hrun⟩ := ih
    exact ⟨fuel + 1, (runLoop_next below first fuel).trans hrun⟩

/-- R277: the loop ends where the budget is consumed or the core is held in reset. -/
theorem Machine.RunsFor.ends (h : RunsFor budget c s c' t) : budget ≤ c' ∨ t.resetLine = true := by
  induction h with
  | consumed hle => exact .inl hle
  | held hheld => exact .inr ((heldInResetHasNoStep _).mp hheld)
  | more _ _ _ ih => exact ih

/-- R277: the loop ends where it starts, or by a last core step, from a state in which the budget was not yet consumed. -/
theorem Machine.RunsFor.last_step (h : RunsFor budget c s c' t) :
    (t = s ∧ c' = c) ∨ ∃ (m d : Nat) (u : State),
      CoreSteps m s d u ∧ c + d < budget ∧ step u = .next t ∧ c' = c + d + t.reported := by
  induction h with
  | consumed | held => exact .inl ⟨rfl, rfl⟩
  | @more c _ s t _ below first _ ih =>
    obtain ⟨rfl, rfl⟩ | ⟨m, d, u, hsteps, hbelow, hlast, hcount⟩ := ih
    · exact .inr ⟨0, 0, s, .zero s, below, first, rfl⟩
    · exact .inr ⟨m + 1, t.reported + d, u, .succ first hsteps, by omega, hlast, by omega⟩

/-- A run answers an end that overruns its budget by at most 6 cycles, or a refusal. -/
def EndsNear (budget : Nat) (r : Ran) : Prop :=
  (∃ (consumed : Nat) (t : State), r = .done consumed t ∧ consumed ≤ budget + 6) ∨
    ∃ (consumed : Nat) (q : Refusal), r = .refused consumed q

/-- How many steps are enough under the policy `refuse` for each cycle still to be consumed: two, the first of them saved at
a fetch, because every second step is an instruction, of at least two cycles. -/
theorem runLoop_endsNear {fuel : Nat} (hpolicy : s.cfg.undefPolicy = .refuse) (hc : c ≤ budget + 6)
    (hfuel : 2 * (budget - c) ≤ fuel + if s.phase = .atFetch then 1 else 0) :
    EndsNear budget (runLoop fuel budget c s) := by
  fun_induction runLoop fuel budget c s with
  | case1 => exact .inl ⟨_, _, rfl, hc⟩
  | case2 =>
    -- Out of fuel below the budget.
    exfalso
    split at hfuel <;> omega
  | case3 budget c s hlt fuel t hstep ih =>
    obtain ⟨l, hdoes⟩ := step_does hstep
    have hpolicy' : t.cfg.undefPolicy = .refuse := by
      rw [hdoes.cfg]
      exact hpolicy
    obtain ⟨hhigh, hphases⟩ := step_reported_of_refuse hpolicy hstep
    refine ih hpolicy' (by omega) ?_
    obtain ⟨hfrom, hto, hlow⟩ | ⟨hfrom, hto⟩ := hphases <;>
      simp only [hfrom, hto, reduceCtorEq, if_true, if_false] at hfuel ⊢ <;> omega
  | case4 => exact .inl ⟨_, _, rfl, hc⟩
  | case5 => exact .inr ⟨_, _, rfl⟩

end

/-- Settles O58: the function follows the loop step by step; the last step is the row of steps before it and one more; under
`refuse` the fuel lasts (R276, R277, R285). -/
theorem runStopsAtBudget : Obligations.RunStopsAtBudget := by
  unfold Obligations.RunStopsAtBudget
  refine ⟨fun budget consumed s t => ⟨fun ⟨_, hrun⟩ => runsFor_of_runLoop hrun, exists_runLoop_of_runsFor⟩,
    fun budget consumed s t hruns => ?steps,
    fun budget s hpolicy => runLoop_endsNear hpolicy (Nat.zero_le _) (Nat.le_add_right _ _)⟩
  case steps =>
    obtain ⟨rfl, rfl⟩ | ⟨m, c, u, hsteps, hbelow, hlast, rfl⟩ := hruns.last_step
    · exact ⟨0, .zero t, hruns.ends, .inl rfl⟩
    · rw [Nat.zero_add] at hbelow hruns ⊢
      exact ⟨m + 1, hsteps.snoc hlast, hruns.ends, .inr ⟨m, c, u, rfl, hsteps, hbelow, hlast, rfl⟩⟩

/-! ### A run to an end predicate -/

/-- No state that fewer than `n` core steps from `s` lead to meets `ends`. -/
def NoEndBefore (ends : State → Bool) (n : Nat) (s : State) : Prop :=
  ∀ (m c : Nat) (u : State), m < n → CoreSteps m s c u → ends u = false

section

variable {ends : State → Bool} {n c c' : Nat} {s t u : State}

theorem noEndBefore_zero : NoEndBefore ends 0 s := fun _ _ _ hm => absurd hm (Nat.not_lt_zero _)

theorem NoEndBefore.succ (hs : ends s = false) (hstep : step s = .next t) (h : NoEndBefore ends n t) :
    NoEndBefore ends (n + 1) s := by
  intro m c u hm hsteps
  cases m with
  | zero =>
    rw [coreSteps_zero hsteps]
    exact hs
  | succ m =>
    obtain ⟨d, hrest⟩ := coreSteps_succ_of_step hstep hsteps
    exact h m d u (Nat.lt_of_succ_lt_succ hm) hrest

/-- R278: the steps that `runUntil` takes to the end it answers. -/
theorem coreSteps_of_runUntil {fuel : Nat} (h : runUntil ends fuel c s = .done c' t) :
    ∃ n d, n ≤ fuel ∧ c' = c + d ∧ CoreSteps n s d t ∧ ends t = true ∧ NoEndBefore ends n s := by
  fun_induction runUntil ends fuel c s with
  | case1 fuel c s hend =>
    cases h
    exact ⟨0, 0, Nat.zero_le _, rfl, .zero _, hend, noEndBefore_zero⟩
  | case3 c s hgoes fuel u hstep ih =>
    obtain ⟨n, d, hn, rfl, hsteps, hend, hbefore⟩ := ih h
    exact ⟨n + 1, u.reported + d, Nat.succ_le_succ hn, Nat.add_assoc _ _ _, .succ hstep hsteps, hend,
      hbefore.succ (by simpa using hgoes) hstep⟩
  | case2 | case4 | case5 => cases h  -- out of fuel, held in reset, refused

/-- Core steps to the first state that meets the end predicate are a run of the whole system to it. -/
theorem Machine.CoreSteps.runsUntil (h : CoreSteps n s c t) (hend : ends t = true) (hbefore : NoEndBefore ends n s) :
    RunsUntil (fun u => ends u = true) s t := by
  induction h with
  | zero => exact .done hend
  | @succ n c s t u first rest ih =>
    have hs : ends s = false := hbefore 0 0 s (Nat.succ_pos n) (.zero s)
    have hbefore' : NoEndBefore ends n t := fun m d v hm hsteps =>
      hbefore (m + 1) _ v (Nat.succ_lt_succ hm) (.succ first hsteps)
    exact .move (by simp [hs]) (.core first) (ih hend hbefore')

end

/-- Settles O59: `runUntil` takes core steps and tests each state before the next step (R276, R278). -/
theorem runUntilStopsAtItsEnd : Obligations.RunUntilStopsAtItsEnd := by
  unfold Obligations.RunUntilStopsAtItsEnd
  intro ends fuel consumed s t hrun
  obtain ⟨n, d, hn, rfl, hsteps, hend, hbefore⟩ := coreSteps_of_runUntil hrun
  rw [Nat.zero_add]
  exact ⟨hsteps.runsUntil hend hbefore, n, hn, hsteps, hend, hbefore⟩

end Sys2Proof
